-- ==== Sys2Proof/Word.lean ====
section
/-!
DEFINITION. The word types of the engine (spec/00_scope.md R7, R9): everything is unsigned.
-/

namespace Sys2Proof

/-- `u32`, the word of R7. `+` on it is addition modulo 2^32 (R10). -/
abbrev Word := BitVec 32

/-- `u8`. -/
abbrev Byte := BitVec 8

/-- A 512-bit block: 64 bytes (R7). -/
abbrev Block := Vector Byte 64

/-- Eight words: a hash state `H[0..7]` or the working variables `V[0..7]` (R7, R31). -/
abbrev Words8 := Vector Word 8

/-- A message schedule `W[0..63]` or the table `K[0..63]` (R7, R32, R33). -/
abbrev Words64 := Vector Word 64

end Sys2Proof
end

