-- ==== Sys2Proof/Syntax.lean ====
section
/-!
DEFINITION. The syntax of host operations: the 21 rows of spec/opcode_table.json (spec/30_encoding.md R86), the
registers they name (spec/10_state.md R35), a bus access, and what can reach the engine from outside.
-/

namespace Sys2Proof

/-- The sixteen registers of the window (spec/10_state.md R35). -/
inductive Reg where
  | id
  | cmd
  | status
  | dataWord
  | dataByte
  | lenLo
  | lenHi
  | irqEn
  | digest (i : Fin 8)
  deriving DecidableEq, Repr

/-- A host operation, one constructor per row of spec/opcode_table.json. Ignored data bits are kept as operands,
so that no bit of an access word is lost; no meaning reads them. -/
inductive Instr where
  | rdId
  | rdCmd
  | rdStatus
  | rdDataWord
  | rdDataByte
  | rdLenLo
  | rdLenHi
  | rdIrqEn
  /-- `i = OFF[4:2]` (R187). -/
  | rdDigest (i : Fin 8)
  | wrId (data : Word)
  | init
  | finish
  | finishRaw
  /-- A CMD write whose data is not 1, 2 or 3 (R82, R204): RSVD = DATA[31:4], OP = DATA[3:0]. -/
  | cmdIllegal (rsvd : BitVec 28) (op : BitVec 4)
  | wrStatus (data : Word)
  /-- `b0 = DATA[31:24]` … `b3 = DATA[7:0]` (R83). -/
  | wrDataWord (b0 b1 b2 b3 : Byte)
  /-- `b = DATA[7:0]`; DATA[31:8] is ignored (R84). -/
  | wrDataByte (b : Byte) (ignored : BitVec 24)
  | wrLenLo (data : Word)
  | wrLenHi (data : Word)
  /-- `doneIe = DATA[0]`, `errIe = DATA[1]`; DATA[31:2] is discarded (R85). -/
  | wrIrqEn (doneIe errIe : Bool) (ignored : BitVec 30)
  /-- `i = OFF[4:2]`; DATA is ignored (R216). -/
  | wrDigest (i : Fin 8) (data : Word)
  deriving DecidableEq, Repr

/-- One bus access, `BusAccess(off, size, we, data)` of spec/20_memory.md R62. `size` is in bytes. A read carries
`data = 0` (R80). An access wider than 32 bits has more data than this field shows; it is answered BusErr whatever
its data (log 10). -/
structure Access where
  size : Nat
  off : BitVec 6
  we : Bool
  data : Word
  deriving DecidableEq, Repr

/-- What reaches the engine from outside: a bus access (R13), or a change of the reset input (R260). -/
inductive Input where
  | access (a : Access)
  | resetAssert
  | resetRelease
  deriving DecidableEq, Repr

end Sys2Proof
end

