-- ==== Sys2Proof/WellFormed.lean ====
section
/-!
DEFINITION. Which terms of `Instr` stand for an access word.
-/

namespace Sys2Proof

/-- The data of an illegal command is none of the three legal ones (spec/30_encoding.md R82, R88): some RSVD bit is
set, or OP is not 1, 2 or 3. -/
def cmdDataIllegal (rsvd : BitVec 28) (op : BitVec 4) : Bool :=
  rsvd != 0#28 || !(op == 1#4 || op == 2#4 || op == 3#4)

/-- Every term stands for an access word but a `cmdIllegal` that carries a legal command. -/
def Instr.wf : Instr → Bool
  | .cmdIllegal rsvd op => cmdDataIllegal rsvd op
  | .rdId | .rdCmd | .rdStatus | .rdDataWord | .rdDataByte | .rdLenLo | .rdLenHi | .rdIrqEn => true
  | .rdDigest _ | .wrId _ | .init | .finish | .finishRaw | .wrStatus _ | .wrDataWord _ _ _ _ => true
  | .wrDataByte _ _ | .wrLenLo _ | .wrLenHi _ | .wrIrqEn _ _ _ | .wrDigest _ _ => true

end Sys2Proof
end

