-- ==== Sys2Proof/Decode.lean ====
section
/-!
DEFINITION. Access words, the decoder and the encoder (spec/30_encoding.md R80 to R89), and the address window
(spec/20_memory.md R61, R62).

An access word is the 39-bit number of R80: WE = [38], OFF = [37:32], DATA = [31:0].
-/

namespace Sys2Proof

/-- The access word of R80. -/
abbrev AccessWord := BitVec 39

/-- Put an access word together from its fields (R80). -/
def accessWord (we : Bool) (off : BitVec 6) (data : Word) : AccessWord :=
  BitVec.ofBool we ++ off ++ data

/-- WE, bit 38. -/
def wordWe (a : AccessWord) : Bool := a.getLsbD 38

/-- OFF, bits 37..32. -/
def wordOff (a : AccessWord) : BitVec 6 := a.extractLsb' 32 6

/-- DATA, bits 31..0. -/
def wordData (a : AccessWord) : Word := a.extractLsb' 0 32

/-! ### Registers and offsets (spec/10_state.md R35) -/

/-- The byte offset of a register; a digest register has the offset 0b1iii00 (R86). -/
def Reg.off : Reg → BitVec 6
  | .id => 0x00#6
  | .cmd => 0x04#6
  | .status => 0x08#6
  | .dataWord => 0x0C#6
  | .dataByte => 0x10#6
  | .lenLo => 0x14#6
  | .lenHi => 0x18#6
  | .irqEn => 0x1C#6
  | .digest i => 1#1 ++ (BitVec.ofFin i : BitVec 3) ++ 0#2

/-- `OFF[4:2]`, the index of a digest register. -/
def digestIndex (off : BitVec 6) : Fin 8 := (off.extractLsb' 2 3).toFin

/-- The register at an offset, or none where `OFF[1:0]` is not 0 (R62). Every word offset is mapped (R35). -/
def Reg.ofOff (off : BitVec 6) : Option Reg :=
  if off.extractLsb' 0 2 ≠ 0#2 then none
  else if off.getLsbD 5 then some (.digest (digestIndex off))
  else if off = 0x00#6 then some .id
  else if off = 0x04#6 then some .cmd
  else if off = 0x08#6 then some .status
  else if off = 0x0C#6 then some .dataWord
  else if off = 0x10#6 then some .dataByte
  else if off = 0x14#6 then some .lenLo
  else if off = 0x18#6 then some .lenHi
  else some .irqEn

/-! ### The decoder -/

/-- Why an access is answered BusErr (R62). -/
inductive BusReject where
  /-- The access is not 32 bits wide. -/
  | badSize
  /-- `OFF[1:0]` is not 0. -/
  | misaligned
  deriving DecidableEq, Repr

/-- The command sub-map (R82, R87): the whole of DATA is looked at. -/
def decodeCmd (data : Word) : Instr :=
  if data = 1#32 then .init
  else if data = 2#32 then .finish
  else if data = 3#32 then .finishRaw
  else .cmdIllegal (data.extractLsb' 4 28) (data.extractLsb' 0 4)

/-- Format RD of R80: WE = 0, decoded on OFF alone. -/
def decodeRead : Reg → Instr
  | .id => .rdId
  | .cmd => .rdCmd
  | .status => .rdStatus
  | .dataWord => .rdDataWord
  | .dataByte => .rdDataByte
  | .lenLo => .rdLenLo
  | .lenHi => .rdLenHi
  | .irqEn => .rdIrqEn
  | .digest i => .rdDigest i

/-- Format WR of R80: WE = 1, decoded on OFF, and for CMD on DATA too. The operand fields are those of R83 to R85. -/
def decodeWrite (reg : Reg) (data : Word) : Instr :=
  match reg with
  | .id => .wrId data
  | .cmd => decodeCmd data
  | .status => .wrStatus data
  | .dataWord =>
    .wrDataWord (data.extractLsb' 24 8) (data.extractLsb' 16 8) (data.extractLsb' 8 8) (data.extractLsb' 0 8)
  | .dataByte => .wrDataByte (data.extractLsb' 0 8) (data.extractLsb' 8 24)
  | .lenLo => .wrLenLo data
  | .lenHi => .wrLenHi data
  | .irqEn => .wrIrqEn (data.getLsbD 0) (data.getLsbD 1) (data.extractLsb' 2 30)
  | .digest i => .wrDigest i data

/-- Decode the fields of an aligned 32-bit access (R86), or say that it is misaligned (R62). -/
def decodeFields (we : Bool) (off : BitVec 6) (data : Word) : Except BusReject Instr :=
  match Reg.ofOff off with
  | none => .error .misaligned
  | some reg => .ok (if we then decodeWrite reg data else decodeRead reg)

/-- Decode an access word (R80, R86). -/
def decode (a : AccessWord) : Except BusReject Instr :=
  decodeFields (wordWe a) (wordOff a) (wordData a)

/-- Decode any access: total, a row of the opcode map or a bus error (R62, R89). -/
def decodeAccess (a : Access) : Except BusReject Instr :=
  if a.size ≠ 4 then .error .badSize else decodeFields a.we a.off a.data

/-! ### The encoder -/

/-- The register an operation accesses. -/
def Instr.reg : Instr → Reg
  | .rdId | .wrId _ => .id
  | .rdCmd | .init | .finish | .finishRaw | .cmdIllegal _ _ => .cmd
  | .rdStatus | .wrStatus _ => .status
  | .rdDataWord | .wrDataWord _ _ _ _ => .dataWord
  | .rdDataByte | .wrDataByte _ _ => .dataByte
  | .rdLenLo | .wrLenLo _ => .lenLo
  | .rdLenHi | .wrLenHi _ => .lenHi
  | .rdIrqEn | .wrIrqEn _ _ _ => .irqEn
  | .rdDigest i | .wrDigest i _ => .digest i

/-- WE: whether an operation is a write (R80). -/
def Instr.isWrite : Instr → Bool
  | .rdId | .rdCmd | .rdStatus | .rdDataWord | .rdDataByte | .rdLenLo | .rdLenHi | .rdIrqEn | .rdDigest _ => false
  | .wrId _ | .init | .finish | .finishRaw | .cmdIllegal _ _ | .wrStatus _ | .wrDataWord _ _ _ _ => true
  | .wrDataByte _ _ | .wrLenLo _ | .wrLenHi _ | .wrIrqEn _ _ _ | .wrDigest _ _ => true

/-- DATA: the operand fields put back where R82 to R85 say they stand; 0 for a read (R80). -/
def Instr.data : Instr → Word
  | .rdId | .rdCmd | .rdStatus | .rdDataWord | .rdDataByte | .rdLenLo | .rdLenHi | .rdIrqEn | .rdDigest _ => 0#32
  | .wrId d | .wrStatus d | .wrLenLo d | .wrLenHi d | .wrDigest _ d => d
  | .init => 1#32
  | .finish => 2#32
  | .finishRaw => 3#32
  | .cmdIllegal rsvd op => rsvd ++ op
  | .wrDataWord b0 b1 b2 b3 => b0 ++ b1 ++ b2 ++ b3
  | .wrDataByte b ignored => ignored ++ b
  | .wrIrqEn doneIe errIe ignored => ignored ++ BitVec.ofBool errIe ++ BitVec.ofBool doneIe

/-- The access word of an operation. -/
def encode (i : Instr) : AccessWord := accessWord i.isWrite i.reg.off i.data

/-- The bus access of an operation. -/
def Instr.access (i : Instr) : Access := ⟨4, i.reg.off, i.isWrite, i.data⟩

/-! ### The opcode map as a table -/

/-- The mnemonic of an operation, as spec/opcode_table.json spells it. -/
def Instr.mnemonic : Instr → String
  | .rdId => "RD_ID"
  | .rdCmd => "RD_CMD"
  | .rdStatus => "RD_STATUS"
  | .rdDataWord => "RD_DATA_WORD"
  | .rdDataByte => "RD_DATA_BYTE"
  | .rdLenLo => "RD_LEN_LO"
  | .rdLenHi => "RD_LEN_HI"
  | .rdIrqEn => "RD_IRQ_EN"
  | .rdDigest _ => "RD_DIGEST"
  | .wrId _ => "WR_ID"
  | .init => "INIT"
  | .finish => "FINISH"
  | .finishRaw => "FINISH_RAW"
  | .cmdIllegal _ _ => "CMD_ILLEGAL"
  | .wrStatus _ => "WR_STATUS"
  | .wrDataWord _ _ _ _ => "WR_DATA_WORD"
  | .wrDataByte _ _ => "WR_DATA_BYTE"
  | .wrLenLo _ => "WR_LEN_LO"
  | .wrLenHi _ => "WR_LEN_HI"
  | .wrIrqEn _ _ _ => "WR_IRQ_EN"
  | .wrDigest _ _ => "WR_DIGEST"

/-- One row of the opcode table: a word `a` matches where `a &&& mask = pattern`. -/
structure OpcodeRow where
  mnemonic : String
  pattern : AccessWord
  mask : AccessWord
  deriving DecidableEq, Repr

/-- The rows whose mask covers all of DATA: the exact CMD rows. -/
def exactRows : List OpcodeRow :=
  [⟨"INIT", 0x4400000001#39, 0x7FFFFFFFFF#39⟩,
   ⟨"FINISH", 0x4400000002#39, 0x7FFFFFFFFF#39⟩,
   ⟨"FINISH_RAW", 0x4400000003#39, 0x7FFFFFFFFF#39⟩]

/-- The rows whose mask covers WE and all of OFF. -/
def offsetRows : List OpcodeRow :=
  [⟨"RD_ID", 0x0000000000#39, 0x7F00000000#39⟩,
   ⟨"RD_CMD", 0x0400000000#39, 0x7F00000000#39⟩,
   ⟨"RD_STATUS", 0x0800000000#39, 0x7F00000000#39⟩,
   ⟨"RD_DATA_WORD", 0x0C00000000#39, 0x7F00000000#39⟩,
   ⟨"RD_DATA_BYTE", 0x1000000000#39, 0x7F00000000#39⟩,
   ⟨"RD_LEN_LO", 0x1400000000#39, 0x7F00000000#39⟩,
   ⟨"RD_LEN_HI", 0x1800000000#39, 0x7F00000000#39⟩,
   ⟨"RD_IRQ_EN", 0x1C00000000#39, 0x7F00000000#39⟩,
   ⟨"WR_ID", 0x4000000000#39, 0x7F00000000#39⟩,
   ⟨"CMD_ILLEGAL", 0x4400000000#39, 0x7F00000000#39⟩,
   ⟨"WR_STATUS", 0x4800000000#39, 0x7F00000000#39⟩,
   ⟨"WR_DATA_WORD", 0x4C00000000#39, 0x7F00000000#39⟩,
   ⟨"WR_DATA_BYTE", 0x5000000000#39, 0x7F00000000#39⟩,
   ⟨"WR_LEN_LO", 0x5400000000#39, 0x7F00000000#39⟩,
   ⟨"WR_LEN_HI", 0x5800000000#39, 0x7F00000000#39⟩,
   ⟨"WR_IRQ_EN", 0x5C00000000#39, 0x7F00000000#39⟩]

/-- The rows whose mask leaves `OFF[4:2]`, the digest index, open. -/
def digestRows : List OpcodeRow :=
  [⟨"RD_DIGEST", 0x2000000000#39, 0x6300000000#39⟩,
   ⟨"WR_DIGEST", 0x6000000000#39, 0x6300000000#39⟩]

/-- spec/opcode_table.json in the order R86 tries it: from the largest mask to the smallest. -/
def opcodeRows : List OpcodeRow := exactRows ++ offsetRows ++ digestRows

/-- The mnemonic of the first row that matches (R86). The machine runs on `decode`; this table is the other reading
of the same rule, for a statement that the two agree. -/
def firstMatch (a : AccessWord) : Option String :=
  (opcodeRows.find? fun row => a &&& row.mask == row.pattern).map OpcodeRow.mnemonic

/-! ### Table words and bus addresses -/

/-- The bus access that a number of opcode-table bits stands for. A number that needs more than 39 bits is no access
word; it becomes an access of size 0, which no row matches (log 9). -/
def accessOfTableWord (w : Nat) : Access :=
  if w < 2 ^ 39 then
    let a := BitVec.ofNat 39 w
    ⟨4, wordOff a, wordWe a, wordData a⟩
  else ⟨0, 0#6, false, 0#32⟩

/-- The operation the decoder reads from a table word. The table's rows are 39 bits wide, whole, so `nbits` adds
nothing to the number `w` (log 9). -/
def decodeTableWord (_nbits w : Nat) : Option Instr :=
  (decodeAccess (accessOfTableWord w)).toOption

/-- The window `SHA_BASE` to `SHA_BASE + 0x3F` (R61): an address outside it never reaches the engine (none). The
offset is `addr - SHA_BASE`. -/
def windowOff (shaBase addr : Nat) : Option (BitVec 6) :=
  if shaBase ≤ addr ∧ addr < shaBase + 64 then some (BitVec.ofNat 6 (addr - shaBase)) else none

/-- What an access at a bus address brings to the engine (R61, R62): nothing where the address is outside the
window. -/
def busInput (shaBase addr size : Nat) (we : Bool) (data : Word) : Option Input :=
  (windowOff shaBase addr).map fun off => .access ⟨size, off, we, data⟩

end Sys2Proof
end

