-- ==== Sys2Proof/Machine/Operands.lean ====
section
/-!
DEFINITION. Byte and word conversion (spec/00_scope.md R11). Everything is big-endian (spec/20_memory.md R64).
-/

namespace Sys2Proof.Machine

/-- `be32`: four bytes as a word, the first in bits [31:24]. -/
def be32 (b0 b1 b2 b3 : Byte) : Word := b0 ++ b1 ++ b2 ++ b3

/-- `be32_bytes`, the inverse of `be32`. -/
def be32Bytes (w : Word) : List Byte :=
  [w.extractLsb' 24 8, w.extractLsb' 16 8, w.extractLsb' 8 8, w.extractLsb' 0 8]

/-- `be64_bytes`: the eight bytes of a u64, most significant first. -/
def be64Bytes (x : BitVec 64) : Vector Byte 8 :=
  #v[x.extractLsb' 56 8, x.extractLsb' 48 8, x.extractLsb' 40 8, x.extractLsb' 32 8,
     x.extractLsb' 24 8, x.extractLsb' 16 8, x.extractLsb' 8 8, x.extractLsb' 0 8]

/-- `zext_64(LEN) << 3`, the bit length of a message of `len` bytes (spec/10_state.md R41). -/
def bitLen (len : BitVec 61) : BitVec 64 := len.setWidth 64 <<< 3

end Sys2Proof.Machine
end

