-- ==== Sys2Proof/Machine/Types.lean ====
section
/-!
DEFINITION. The finite sets of names the state record of spec/10_state.md R20 uses.
-/

namespace Sys2Proof.Machine

/-- The engine state `st` (R21). -/
inductive EngineState where
  /-- Accepts message bytes and commands. -/
  | ready
  /-- Compressing a block. -/
  | compress
  /-- The digest is complete. -/
  | done
  /-- A run was rejected. -/
  | error
  deriving DecidableEq, Repr, Inhabited

/-- `nxt`: what the engine does after the UPDATE micro-step (R29). -/
inductive Target where
  /-- TO_READY: an ordinary full block. -/
  | toReady
  /-- TO_PAD2: the first final block, when the length field did not fit. -/
  | toPad2
  /-- TO_DONE: the last final block. -/
  | toDone
  deriving DecidableEq, Repr, Inhabited

/-- The error codes of spec/60_exceptions.md R230. Codes 7 to 15 are "never produced", so they have no name
here (DEDUCED, log 7). -/
inductive ErrCode where
  | none
  | busy
  | badCmd
  | sequence
  | wordMisaligned
  | lengthOverflow
  | malformedInput
  deriving DecidableEq, Repr, Inhabited

end Sys2Proof.Machine
end

