-- ==== Sys2Proof/Config.lean ====
section
/-!
DEFINITION. What the spec leaves free, and the platform's parameters.

A constant without a body is a free value: no proof can learn what it is. Each is applied to the state's counter
`draws`, so that every draw is a fresh one.
-/

namespace Sys2Proof.Config

open Sys2Proof.Machine

/-- BUF after a reset. "Reset value: unspecified" (spec/10_state.md R24, R47; 93_implementation_defined.md U5).
DESIGN CHOICE, log 1. -/
opaque resetBuf : Nat → Block

/-- `nxt` after a reset (R29, R47, U5). DESIGN CHOICE, log 1. -/
opaque resetNxt : Nat → Target

/-- `r` after a reset (R30, R47, U5). DESIGN CHOICE, log 1. -/
opaque resetR : Nat → Fin 65

/-- `V` after a reset (R31, R47, U5). DESIGN CHOICE, log 1. -/
opaque resetV : Nat → Words8

/-- `W` after a reset (R32, R47, U5). DESIGN CHOICE, log 1. -/
opaque resetW : Nat → Words64

/-- How many host inputs are taken before the engine's next micro-step. "The two agents' steps interleave in any
order" and "the engine is weakly fair" (spec/00_scope.md R13; U9): any number, and always finite.
DESIGN CHOICE, log 2. -/
opaque freeGrant : Nat → Nat

/-- The OPEN parameters of spec/00_scope.md R8. They are arguments and never state (R33). `H` is what the platform's
host holds: the last two parameters act on the host and never on the engine (log 11). -/
structure Platform (H : Type) where
  /-- `SHA_BASE`: bus address of the 64-byte window. -/
  shaBase : Nat
  /-- `T_STEP`: clocks per micro-step. -/
  tStep : Nat
  /-- `T_ACCESS`: clocks per bus access. -/
  tAccess : Nat
  /-- `BUSERR_EFFECT`: what a bus error response does to the host (spec/20_memory.md R62; U8). -/
  busErrEffect : H → H
  /-- `IRQ_ROUTE`: what the `irq` line, at the level `before` a move and the level `now` after it, does to the host
  (spec/60_exceptions.md R241; U13). Level and edge capture, the number and the controller are all said so. That it is
  asked at the end of every move, and at no other moment, is the model's choice (log 11). -/
  irqRoute : (before now : Bool) → H → H

/-- What R8 asks of the parameters: `SHA_BASE` is 64-byte aligned and `T_STEP` is at least 1. -/
def Platform.wf {H : Type} (p : Platform H) : Bool :=
  p.shaBase % 64 == 0 && 1 ≤ p.tStep

end Sys2Proof.Config
end

