-- ==== Sys2Proof/Machine/State.lean ====
section
/-!
DEFINITION. The state record of spec/10_state.md R20, what stands around the engine, the reasons a step can stop,
and the state after reset (R47).
-/

namespace Sys2Proof.Machine

/-- What the last bus access answered: `BusRead(off) -> u32 | BusErr` and `BusWrite(off, v) -> ok | BusErr`
(spec/00_scope.md R12). -/
inductive Response where
  /-- No access has been answered yet. -/
  | none
  /-- A write completed, also one that raised an engine error (spec/60_exceptions.md R231). -/
  | ok
  /-- A read returned this value. -/
  | data (v : Word)
  /-- The access did not decode (spec/20_memory.md R62). -/
  | busErr
  deriving DecidableEq, Repr

/-- The state: the engine's record of R20, then the outside of the engine, then the model's own fields. -/
structure State where
  /-- `st` (R21). -/
  st : EngineState
  /-- `H[0..7]`, the hash state (R23). -/
  h : Words8
  /-- `BUF[0..63]`, the block buffer (R24). -/
  buf : Block
  /-- `cnt`, bytes held in BUF, 0 to 63 (R25). -/
  cnt : Fin 64
  /-- `LEN`, message bytes accepted since the last INIT or reset (R26). -/
  len : BitVec 61
  /-- `err`, the error code (R27). -/
  err : ErrCode
  /-- `irq_en`: bit 0 DONE_IE, bit 1 ERR_IE (R28). -/
  irqEn : BitVec 2
  /-- `nxt` (R29). -/
  nxt : Target
  /-- `r`, the round counter, 0 to 64 (R30). -/
  r : Fin 65
  /-- `V[0..7]`, the working variables a..h (R31). -/
  v : Words8
  /-- `W[0..63]`, the message schedule (R32). -/
  w : Words64
  /-- The reset input is asserted (spec/70_reset_and_hazards.md R260; log 6). -/
  inReset : Bool
  /-- What the outside has sent and the engine has not taken yet, oldest first (spec/20_memory.md R69; log 3). -/
  inputs : List Input
  /-- The answer to the last access (R12, R13; log 4). -/
  resp : Response
  /-- The model's own: inputs still taken before the engine's next micro-step (R13; log 2). -/
  grant : Nat
  /-- The model's own: how many free values have been drawn (log 2). -/
  draws : Nat
  deriving DecidableEq, Repr

/-- No access and no micro-step faults: "The engine never traps the host" (spec/60_exceptions.md R242), a bad access
is answered BusErr with no state change (R231), and "No engine step can fail or hang" (spec/42_rounds.md R169). So
there is no constructor, which no unsafe use can be made of (log 15). -/
inductive Fault where
  deriving DecidableEq, Repr

/-- The reasons a step is refused. -/
inductive Refusal where
  /-- Raised by an arm of `exec` that has no meaning yet; no arm of this model does. Safe. -/
  | notModelled (mnemonic : String)
  /-- Raised by the bus: an access while reset is asserted. The engine "answers no access" and "what the bus does
  with an access then is the platform's business" (R260; `refuse` in 93_implementation_defined.md U12). Safe: the
  model stops where the platform goes on (log 6). -/
  | accessDuringReset
  deriving DecidableEq, Repr

/-- The machine right after reset (R47, R260). BUF, nxt, r, V and W are unspecified: each holds the
first draw of a constant without a body (log 1). -/
def State.reset : State where
  st := .ready
  h := iv
  buf := Config.resetBuf 0
  cnt := 0
  len := 0#61
  err := .none
  irqEn := 0b00#2
  nxt := Config.resetNxt 0
  r := Config.resetR 0
  v := Config.resetV 0
  w := Config.resetW 0
  inReset := false
  inputs := []
  resp := .none
  grant := Config.freeGrant 0
  draws := 1

end Sys2Proof.Machine
end

