-- ==== Sys2Proof/Machine/Flags.lean ====
section
/-!
DEFINITION. The values the registers read: STATUS, LEN, IRQ_EN, DIGEST, and the `irq` output (spec/10_state.md R38,
R41 to R43; spec/60_exceptions.md R240). Each is a function of the state record, so no flag is set as a side effect
(R44).
-/

namespace Sys2Proof.Machine

/-- The numbers of the error codes (spec/60_exceptions.md R230). -/
def ErrCode.code : ErrCode → BitVec 4
  | .none => 0#4
  | .busy => 1#4
  | .badCmd => 2#4
  | .sequence => 3#4
  | .wordMisaligned => 4#4
  | .lengthOverflow => 5#4
  | .malformedInput => 6#4

/-- `irq = (st = DONE ∧ irq_en[0]) ∨ (st = ERROR ∧ irq_en[1])` (R240). -/
def State.irq (s : State) : Bool :=
  (s.st == .done && s.irqEn.getLsbD 0) || (s.st == .error && s.irqEn.getLsbD 1)

/-- STATUS.FINAL: `st = COMPRESS ∧ nxt ≠ TO_READY` (R38). -/
def State.final (s : State) : Bool := s.st == .compress && s.nxt != .toReady

/-- A flag as a word, for shifting into place. -/
def flagWord (b : Bool) : Word := (BitVec.ofBool b).setWidth 32

/-- The STATUS word, as spec/44_commands.md R212 puts it together. -/
def State.status (s : State) : Word :=
  flagWord (s.st == .compress)
    ||| flagWord (s.st == .done) <<< 1
    ||| flagWord (s.st == .error) <<< 2
    ||| flagWord (s.st == .ready) <<< 3
    ||| flagWord s.final <<< 4
    ||| flagWord s.irq <<< 5
    ||| s.err.code.setWidth 32 <<< 8
    ||| BitVec.ofNat 32 s.cnt.val <<< 16

/-- LEN_LO: bits [31:0] of the bit length (R41). -/
def State.lenLo (s : State) : Word := (bitLen s.len).extractLsb' 0 32

/-- LEN_HI: bits [63:32] of the bit length (R41). -/
def State.lenHi (s : State) : Word := (bitLen s.len).extractLsb' 32 32

/-- IRQ_EN: the two enables, the other bits read 0 (R42). -/
def State.irqEnWord (s : State) : Word := s.irqEn.setWidth 32

/-- What a register reads (R35): the write-only ones read 0 (spec/44_commands.md R217). -/
def State.readReg (s : State) : Reg → Word
  | .id => idValue
  | .cmd => 0#32
  | .status => s.status
  | .dataWord => 0#32
  | .dataByte => 0#32
  | .lenLo => s.lenLo
  | .lenHi => s.lenHi
  | .irqEn => s.irqEnWord
  | .digest i => s.h[i]

end Sys2Proof.Machine
end

