-- ==== Sys2Proof/Machine/Schedule.lean ====
section
/-!
DEFINITION. The message schedule expander (spec/41_schedule.md).
-/

namespace Sys2Proof.Machine

/-- `rotr(x, n)` (R130): `(x >> n) ∨ (x << (32 − n))`, for 0 < n < 32. -/
def rotr (x : Word) (n : Nat) : Word := (x >>> n) ||| (x <<< (32 - n))

/-- `σ0` (R132). -/
def smallSigma0 (x : Word) : Word := rotr x 7 ^^^ rotr x 18 ^^^ (x >>> 3)

/-- `σ1` (R133). -/
def smallSigma1 (x : Word) : Word := rotr x 17 ^^^ rotr x 19 ^^^ (x >>> 10)

/-- `W[t] = be32(blk[4t .. 4t+4))` for `t < 16` (R134); the words above are filled in by `expand`. -/
def loadWords (blk : Block) : Words64 :=
  Vector.ofFn fun t : Fin 64 =>
    if h : t.val < 16 then be32 blk[4 * t.val] blk[4 * t.val + 1] blk[4 * t.val + 2] blk[4 * t.val + 3] else 0#32

/-- `W[i-16] + σ0(W[i-15]) + W[i-7] + σ1(W[i-2])` (R135). -/
def scheduleSum (w : Words64) (i : Nat) (h : 16 ≤ i ∧ i < 64) : Word :=
  w[i - 16] + smallSigma0 w[i - 15] + w[i - 7] + smallSigma1 w[i - 2]

/-- Write `W[i]`, for `16 ≤ i < 64` (R135). -/
def scheduleStep (w : Words64) (i : Nat) : Words64 :=
  if h : 16 ≤ i ∧ i < 64 then w.set i (scheduleSum w i h) else w

/-- `Expand(blk)` (R135): the words 16 to 63 in increasing order. -/
def expand (blk : Block) : Words64 :=
  (List.range' 16 48).foldl scheduleStep (loadWords blk)

end Sys2Proof.Machine
end

