-- ==== Sys2Proof/Machine/Rounds.lean ====
section
/-!
DEFINITION. The round function and the compression of one block (spec/42_rounds.md R151 to R159), with the
hash-state update (spec/43_update_serializer.md R181).
-/

namespace Sys2Proof.Machine

/-- `Σ0` (R151). -/
def bigSigma0 (x : Word) : Word := rotr x 2 ^^^ rotr x 13 ^^^ rotr x 22

/-- `Σ1` (R152). -/
def bigSigma1 (x : Word) : Word := rotr x 6 ^^^ rotr x 11 ^^^ rotr x 25

/-- `Ch` (R153). -/
def ch (x y z : Word) : Word := (x &&& y) ^^^ (~~~x &&& z)

/-- `Maj` (R154). -/
def maj (x y z : Word) : Word := (x &&& y) ^^^ (x &&& z) ^^^ (y &&& z)

/-- `T1 = h + Σ1(e) + Ch(e, f, g) + K[i] + W[i]` (R155), from the working variables before the round. -/
def t1 (v : Words8) (k w : Word) : Word := v[7] + bigSigma1 v[4] + ch v[4] v[5] v[6] + k + w

/-- `T2 = Σ0(a) + Maj(a, b, c)` (R156). -/
def t2 (v : Words8) : Word := bigSigma0 v[0] + maj v[0] v[1] v[2]

/-- `(T1 + T2, a, b, c, d + T1, e, f, g)` (R157), for given `K[i]` and `W[i]`. -/
def roundWith (v : Words8) (k w : Word) : Words8 :=
  #v[t1 v k w + t2 v, v[0], v[1], v[2], v[3] + t1 v k w, v[4], v[5], v[6]]

/-- `Round(V, i)` (R157). -/
def round (w : Words64) (v : Words8) (i : Fin 64) : Words8 :=
  roundWith v roundConstants[i] w[i]

/-- `UpdateState(H, V)` (spec/43_update_serializer.md R181). -/
def updateState (h v : Words8) : Words8 := Vector.ofFn fun j : Fin 8 => h[j] + v[j]

/-- Rounds 0 to 63 in order (R159). -/
def allRounds (w : Words64) (v : Words8) : Words8 := (List.finRange 64).foldl (round w) v

/-- `Compress(H, blk)` (R159). The working variables start as `(H[0], …, H[7])` (R158). -/
def compress (h : Words8) (blk : Block) : Words8 := updateState h (allRounds (expand blk) h)

end Sys2Proof.Machine
end

