-- ==== Sys2Proof/Machine/Padding.lean ====
section
/-!
DEFINITION. The padding function (spec/40_padder.md R100 to R102), the blocks the hardware padder builds (R112,
R113), and the digest of a byte sequence (spec/43_update_serializer.md R185, R186).
-/

namespace Sys2Proof.Machine

/-- The zero run `z = (55 − L) mod 64` (R101), written without a negative number. -/
def zeroRun (l : Nat) : Nat := (119 - l % 64) % 64

/-- `be64_bytes(zext_64(L) << 3)`, the length field for a message of `l` bytes (R100). -/
def lengthField (l : Nat) : List Byte := (be64Bytes (bitLen (BitVec.ofNat 61 l))).toList

/-- `pad(m)` (R100). -/
def pad (m : List Byte) : List Byte :=
  m ++ [0x80#8] ++ List.replicate (zeroRun m.length) 0x00#8 ++ lengthField m.length

/-- `N`, the number of blocks of `pad(m)` for `|m| = l` (R102). -/
def paddedBlocks (l : Nat) : Nat := (l + 8) / 64 + 1

/-- The block `p[64k .. 64k+64)`. -/
def blockAt (p : List Byte) (k : Nat) : Block := Vector.ofFn fun j : Fin 64 => p.getD (64 * k + j.val) 0x00#8

/-- The whole blocks of `p`, in order. -/
def blocksOf (p : List Byte) : List Block := (List.range (p.length / 64)).map (blockAt p)

/-- `serialize(H)` (spec/43_update_serializer.md R186): H[0] first, each word as four big-endian bytes. -/
def serialize (h : Words8) : List Byte := h.toList.flatMap be32Bytes

/-- `digest(p)` (spec/43_update_serializer.md R185), for a `p` whose length is a positive multiple of 64. -/
def digest (p : List Byte) : List Byte := serialize ((blocksOf p).foldl compress iv)

/-- The first final block of `PadFinal` (R112): BUF with the marker at `n`, then zeros, then the length field if it
still fits (`n ≤ 55`). -/
def padFinalBlock (buf : Block) (n : Fin 64) (len : BitVec 61) : Block :=
  Vector.ofFn fun j : Fin 64 =>
    if j < n then buf[j]
    else if j = n then 0x80#8
    else if h : n.val ≤ 55 ∧ 56 ≤ j.val then (be64Bytes (bitLen len))[j.val - 56]
    else 0x00#8

/-- `PadBlock2(L)` (R113). -/
def padBlock2 (len : BitVec 61) : Block :=
  Vector.ofFn fun j : Fin 64 => if h : 56 ≤ j.val then (be64Bytes (bitLen len))[j.val - 56] else 0x00#8

/-- `65 · T_STEP`: the clocks of one block's compression, 64 rounds and one update
(spec/70_reset_and_hazards.md R270, which calls the figure illustrative). -/
def blockClocks {H : Type} (p : Config.Platform H) : Nat := 65 * p.tStep

/-- `N` times that: the compression clocks of a message of `l` bytes ended by FINISH (R270). -/
def messageClocks {H : Type} (p : Config.Platform H) (l : Nat) : Nat := paddedBlocks l * blockClocks p

end Sys2Proof.Machine
end

