-- ==== Sys2Proof/Machine/Ops.lean ====
section
/-!
DEFINITION. The shared operations of the engine: the error entry, starting a compression, taking in bytes, padding,
the engine's micro-steps, and reset.
-/

namespace Sys2Proof.Machine

/-- The answer to an access goes to the host (spec/00_scope.md R12). -/
def State.respond (s : State) (a : Response) : State := { s with resp := a }

/-- `raise Error(code)` (spec/60_exceptions.md R233): the engine's one exception entry. "Nothing else changes". -/
def State.raiseError (s : State) (code : ErrCode) : State := { s with st := .error, err := code }

/-- INIT (spec/44_commands.md R201): the one return from ERROR apart from reset (R236). `irq_en`, BUF, nxt, r, V and
W are left as they are. -/
def State.startRun (s : State) : State :=
  { s with st := .ready, h := iv, cnt := 0, len := 0#61, err := .none }

/-- What reset leaves when it is released (spec/70_reset_and_hazards.md R260). The unspecified fields take fresh
free values (log 1). -/
def State.resetEngine (s : State) : State :=
  { s with
    st := .ready, h := iv, cnt := 0, len := 0#61, err := .none, irqEn := 0b00#2
    buf := Config.resetBuf s.draws, nxt := Config.resetNxt s.draws, r := Config.resetR s.draws
    v := Config.resetV s.draws, w := Config.resetW s.draws
    draws := s.draws + 1 }

/-- `StartCompress(blk, target)` (spec/42_rounds.md R164). -/
def State.startCompress (s : State) (blk : Block) (target : Target) : State :=
  { s with w := expand blk, v := s.h, r := 0, nxt := target, st := .compress }

/-- `AppendByte(b)` (spec/40_padder.md R104): its lines run one after another. -/
def State.appendByte (s : State) (b : Byte) : State :=
  let s1 := { s with buf := s.buf.set s.cnt b, len := s.len + 1#61 }
  if s.cnt = 63 then ({ s1 with cnt := 0 } : State).startCompress s1.buf .toReady
  else { s1 with cnt := s.cnt + 1 }

/-- `PadFinal()` (spec/40_padder.md R112). -/
def State.padFinal (s : State) : State :=
  let b := padFinalBlock s.buf s.cnt s.len
  { s.startCompress b (if s.cnt.val ≤ 55 then .toDone else .toPad2) with buf := b, cnt := 0 }

/-- The tests every DATA write and every CMD write but INIT begins with, in the order of spec/60_exceptions.md R235:
ignored in ERROR (R234), BUSY in COMPRESS, `inDone` raised in DONE, and `inReady` where the engine is READY. -/
def State.gate (s : State) (inDone : ErrCode) (inReady : State) : State :=
  match s.st with
  | .error => s
  | .compress => s.raiseError .busy
  | .done => s.raiseError inDone
  | .ready => inReady

/-- Four bytes of a DATA_WORD write in READY (spec/40_padder.md R110). -/
def State.takeWord (s : State) (b0 b1 b2 b3 : Byte) : State :=
  if s.len.toNat % 4 ≠ 0 then s.raiseError .wordMisaligned
  else if s.len.toNat > 2 ^ 61 - 5 then s.raiseError .lengthOverflow
  else (((s.appendByte b0).appendByte b1).appendByte b2).appendByte b3

/-- The byte of a DATA_BYTE write in READY (spec/40_padder.md R111). -/
def State.takeByte (s : State) (b : Byte) : State :=
  if s.len.toNat = 2 ^ 61 - 1 then s.raiseError .lengthOverflow else s.appendByte b

/-- FINISH_RAW in READY (spec/44_commands.md R203). -/
def State.endRaw (s : State) : State :=
  if s.len.toNat = 0 ∨ s.cnt ≠ 0 then s.raiseError .malformedInput else { s with st := .done }

/-- The ROUND micro-step (spec/42_rounds.md R165), for `r < 64`. -/
def State.roundStep (s : State) (i : Fin 64) : State :=
  { s with v := round s.w s.v i, r := i.succ }

/-- The UPDATE micro-step (spec/42_rounds.md R166): H first, then the move that `nxt` selects. -/
def State.updateStep (s : State) : State :=
  let s1 := { s with h := updateState s.h s.v }
  match s.nxt with
  | .toReady => { s1 with st := .ready }
  | .toPad2 => ({ s1 with buf := padBlock2 s1.len } : State).startCompress (padBlock2 s1.len) .toDone
  | .toDone => { s1 with st := .done }

/-- One engine micro-step. Outside COMPRESS the engine has none (spec/10_state.md R22, spec/42_rounds.md R169). -/
def State.microStep (s : State) : State :=
  match s.st with
  | .compress => if h : s.r.val < 64 then s.roundStep ⟨s.r.val, h⟩ else s.updateStep
  | .ready | .done | .error => s

/-- The engine takes its turn: a micro-step, and a new draw of how many inputs come before the next (log 2). -/
def State.engineTurn (s : State) : State :=
  { s.microStep with grant := Config.freeGrant s.draws, draws := s.draws + 1 }

/-- The oldest input has been taken: the queue and the grant go down by one (log 2, log 3). -/
def State.dropInput (s : State) (rest : List Input) : State :=
  { s with inputs := rest, grant := s.grant - 1 }

end Sys2Proof.Machine
end

