-- ==== Sys2Proof/Machine/Registers.lean ====
section
/-!
DEFINITION. The meanings of the reads, of the writes to read-only registers and of IRQ_EN writes: the accesses that
raise no error in any state (spec/60_exceptions.md R235, third test).
-/

namespace Sys2Proof.Machine

/-- What a step of this machine answers. -/
abbrev Result := Host.Outcome State Fault Refusal

/-- A read: the value goes to the host and no engine state changes (spec/20_memory.md R66). -/
def answerRead (s : State) (reg : Reg) : Result := .next (s.respond (.data (s.readReg reg)))

/-- A write that is not an error and changes nothing (spec/44_commands.md R216). -/
def answerIgnored (s : State) : Result := .next (s.respond .ok)

/-- RD_ID (spec/44_commands.md R211). -/
def execRdId (s : State) : Result := answerRead s .id

/-- RD_CMD (R217). -/
def execRdCmd (s : State) : Result := answerRead s .cmd

/-- RD_STATUS (R212). -/
def execRdStatus (s : State) : Result := answerRead s .status

/-- RD_DATA_WORD (R217). -/
def execRdDataWord (s : State) : Result := answerRead s .dataWord

/-- RD_DATA_BYTE (R217). -/
def execRdDataByte (s : State) : Result := answerRead s .dataByte

/-- RD_LEN_LO (R213). -/
def execRdLenLo (s : State) : Result := answerRead s .lenLo

/-- RD_LEN_HI (R213). -/
def execRdLenHi (s : State) : Result := answerRead s .lenHi

/-- RD_IRQ_EN (R215). -/
def execRdIrqEn (s : State) : Result := answerRead s .irqEn

/-- RD_DIGEST (spec/43_update_serializer.md R187): legal in every state. -/
def execRdDigest (i : Fin 8) (s : State) : Result := answerRead s (.digest i)

/-- WR_ID (spec/44_commands.md R216). -/
def execWrId (_data : Word) (s : State) : Result := answerIgnored s

/-- WR_STATUS (R216). -/
def execWrStatus (_data : Word) (s : State) : Result := answerIgnored s

/-- WR_LEN_LO (R216). -/
def execWrLenLo (_data : Word) (s : State) : Result := answerIgnored s

/-- WR_LEN_HI (R216). -/
def execWrLenHi (_data : Word) (s : State) : Result := answerIgnored s

/-- WR_DIGEST (R216): it "cannot load a hash state". -/
def execWrDigest (_i : Fin 8) (_data : Word) (s : State) : Result := answerIgnored s

/-- WR_IRQ_EN (R214): in every state; the other data bits are discarded. -/
def execWrIrqEn (doneIe errIe : Bool) (_ignored : BitVec 30) (s : State) : Result :=
  .next ({ s with irqEn := BitVec.ofBool errIe ++ BitVec.ofBool doneIe } |>.respond .ok)

end Sys2Proof.Machine
end

