-- ==== Sys2Proof/Machine/Commands.lean ====
section
/-!
DEFINITION. The meanings of the CMD writes (spec/44_commands.md R200 to R204). A write that raises an engine error
still completes on the bus (spec/60_exceptions.md R231).
-/

namespace Sys2Proof.Machine

/-- INIT (R201): accepted in every state. -/
def execInit (s : State) : Result := .next (s.startRun.respond .ok)

/-- FINISH (R202). -/
def execFinish (s : State) : Result := .next ((s.gate .sequence s.padFinal).respond .ok)

/-- FINISH_RAW (R203). -/
def execFinishRaw (s : State) : Result := .next ((s.gate .sequence s.endRaw).respond .ok)

/-- CMD_ILLEGAL (R204): BAD_CMD from READY and from DONE, BUSY in COMPRESS, ignored in ERROR. -/
def execCmdIllegal (_rsvd : BitVec 28) (_op : BitVec 4) (s : State) : Result :=
  .next ((s.gate .badCmd (s.raiseError .badCmd)).respond .ok)

end Sys2Proof.Machine
end

