-- ==== Sys2Proof/Machine/Intake.lean ====
section
/-!
DEFINITION. The meanings of the DATA writes (spec/40_padder.md R110, R111).
-/

namespace Sys2Proof.Machine

/-- WR_DATA_WORD (R110): four message bytes, `b0` the earliest. -/
def execWrDataWord (b0 b1 b2 b3 : Byte) (s : State) : Result :=
  .next ((s.gate .sequence (s.takeWord b0 b1 b2 b3)).respond .ok)

/-- WR_DATA_BYTE (R111): one message byte; the other data bits are ignored. -/
def execWrDataByte (b : Byte) (_ignored : BitVec 24) (s : State) : Result :=
  .next ((s.gate .sequence (s.takeByte b)).respond .ok)

end Sys2Proof.Machine
end

