-- ==== Sys2Proof/Machine/Dispatch.lean ====
section
/-!
DEFINITION. `exec`: one arm per host operation, each one call of its meaning.
-/

namespace Sys2Proof.Machine

def exec (i : Instr) (s : State) : Host.Outcome State Fault Refusal :=
  match i with
  | .rdId => Sys2Proof.Machine.execRdId s
  | .rdCmd => Sys2Proof.Machine.execRdCmd s
  | .rdStatus => Sys2Proof.Machine.execRdStatus s
  | .rdDataWord => Sys2Proof.Machine.execRdDataWord s
  | .rdDataByte => Sys2Proof.Machine.execRdDataByte s
  | .rdLenLo => Sys2Proof.Machine.execRdLenLo s
  | .rdLenHi => Sys2Proof.Machine.execRdLenHi s
  | .rdIrqEn => Sys2Proof.Machine.execRdIrqEn s
  | .rdDigest j => Sys2Proof.Machine.execRdDigest j s
  | .wrId data => Sys2Proof.Machine.execWrId data s
  | .init => Sys2Proof.Machine.execInit s
  | .finish => Sys2Proof.Machine.execFinish s
  | .finishRaw => Sys2Proof.Machine.execFinishRaw s
  | .cmdIllegal rsvd op => Sys2Proof.Machine.execCmdIllegal rsvd op s
  | .wrStatus data => Sys2Proof.Machine.execWrStatus data s
  | .wrDataWord b0 b1 b2 b3 => Sys2Proof.Machine.execWrDataWord b0 b1 b2 b3 s
  | .wrDataByte b ignored => Sys2Proof.Machine.execWrDataByte b ignored s
  | .wrLenLo data => Sys2Proof.Machine.execWrLenLo data s
  | .wrLenHi data => Sys2Proof.Machine.execWrLenHi data s
  | .wrIrqEn doneIe errIe ignored => Sys2Proof.Machine.execWrIrqEn doneIe errIe ignored s
  | .wrDigest j data => Sys2Proof.Machine.execWrDigest j data s

end Sys2Proof.Machine
end

