-- ==== Sys2Proof/Machine/Turns.lean ====
section
/-!
DEFINITION. Whose turn it is, what a bus access does, and where the next operation is fetched from
(spec/00_scope.md R13; spec/20_memory.md R62, R69).
-/

namespace Sys2Proof.Machine

/-- One bus access (R62, R89): the operation it decodes to, or a BusErr response and no state change. -/
def State.busAccess (s : State) (a : Access) : Result :=
  match decodeAccess a with
  | .ok i => exec i s
  | .error _ => .next (s.respond .busErr)

/-- Reset is released: the state is the one of R260, and the engine answers again. -/
def State.releaseReset (s : State) : State := { s.resetEngine with inReset := false }

/-- Take one input while reset is not asserted. Releasing a reset that is not asserted changes nothing (log 6). -/
def State.takeInput (s : State) : Input → Result
  | .access a => s.busAccess a
  | .resetAssert => .next { s with inReset := true }
  | .resetRelease => .next s

/-- Take one input while reset is asserted: "the engine takes no step and answers no access" (R260). -/
def State.takeInputInReset (s : State) : Input → Result
  | .access _ => .refused .accessDuringReset
  | .resetAssert => .next s
  | .resetRelease => .next s.releaseReset

/-- Take one input, whether reset is asserted or not. -/
def State.receive (s : State) (inp : Input) : Result :=
  if s.inReset then s.takeInputInReset inp else s.takeInput inp

/-- One step of the machine. With inputs waiting in COMPRESS, `grant` says which agent moves (R13, U9); with none
waiting, the engine moves if it can; and otherwise nothing happens (log 5). -/
def State.turn (s : State) : Result :=
  match s.inReset, s.inputs with
  | true, [] => .next s
  | true, inp :: rest => (s.dropInput rest).takeInputInReset inp
  | false, [] =>
    match s.st with
    | .compress => .next s.engineTurn
    | .ready | .done | .error => .next s
  | false, inp :: rest =>
    match s.st, s.grant with
    | .compress, 0 => .next s.engineTurn
    | .compress, _ + 1 | .ready, _ | .done, _ | .error, _ => (s.dropInput rest).takeInput inp

/-- Put an access where the next step takes it from: at the head of the queue, with a grant for it, and reset not
asserted. -/
def State.pushAccess (s : State) (a : Access) : State :=
  { s with inReset := false, inputs := .access a :: s.inputs, grant := s.grant + 1 }

end Sys2Proof.Machine
end

