-- ==== Sys2Proof/Machine/Step.lean ====
section
/-!
DEFINITION. The step, and where it fetches the next operation from.
-/

namespace Sys2Proof.Machine

/-- One step: `State.turn`. -/
def step (s : State) : Host.Outcome State Fault Refusal := s.turn

/-- The access that a table word stands for, placed where `step` takes its next input (log 3, log 9). -/
def State.withFetchWord (s : State) (_nbits w : Nat) : State := s.pushAccess (accessOfTableWord w)

end Sys2Proof.Machine
end

