-- ==== Sys2Proof/Machine/HostProgram.lean ====
section
/-!
DEFINITION. Host programs (spec/30_encoding.md R91 to R93) and the two-agent system that runs one
(spec/00_scope.md R13). The program, its place and its variables belong to the host and not to the engine's state
(spec/10_state.md R33), so they stand in a record of their own (log 18). What a host does while reset is asserted, and in
which order an interrupt and an answer reach it, is marked in log 6, log 11 and log 18.
-/

namespace Sys2Proof.Machine

/-- A statement of R91. A label is written as the index of the statement it marks. -/
inductive HostStmt where
  /-- `RD <reg> [-> <var>]` -/
  | rd (reg : Reg) (dst : Option Nat)
  /-- `WR <reg>, <imm32>` -/
  | wr (reg : Reg) (data : Word)
  /-- `BNZ <var>, <mask>, <label>` -/
  | bnz (var : Nat) (mask : Word) (target : Nat)
  /-- `BZ <var>, <mask>, <label>` -/
  | bz (var : Nat) (mask : Word) (target : Nat)
  deriving DecidableEq, Repr

/-- The access a statement makes; the branches make none (R91). -/
def HostStmt.access? : HostStmt → Option Access
  | .rd reg _ => some ⟨4, reg.off, false, 0#32⟩
  | .wr reg data => some ⟨4, reg.off, true, data⟩
  | .bnz _ _ _ | .bz _ _ _ => none

/-- The binary form of a program's accesses: the sequence of their access words (R93). -/
def programWords (p : List HostStmt) : List AccessWord :=
  p.filterMap fun stmt => stmt.access?.map fun a => accessWord a.we a.off a.data

/-! ### Pseudo-operations (R92) -/

/-- The host variable `s` of the polling loops. -/
def statusVar : Nat := 0

/-- `WAITIDLE` standing at statement `at0`: repeat while BUSY. -/
def waitIdle (at0 : Nat) : List HostStmt := [.rd .status (some statusVar), .bnz statusVar 0x1#32 at0]

/-- `WAITEND` standing at statement `at0`: repeat until DIGEST_VALID or ERROR. -/
def waitEnd (at0 : Nat) : List HostStmt := [.rd .status (some statusVar), .bz statusVar 0x6#32 at0]

/-- `PUSHW <imm32>`. -/
def pushWord (v : Word) : HostStmt := .wr .dataWord v

/-- `PUSHB <imm8>`. -/
def pushByte (b : Byte) : HostStmt := .wr .dataByte (b.setWidth 32)

/-- A DATA write of `n` bytes at statement `at0`, where `len` bytes were pushed before it, with the WAITIDLE that R92
inserts "after each write after which `LEN mod 64 = 0`". -/
def pushAndWait (at0 len n : Nat) (write : HostStmt) : List HostStmt :=
  write :: if (len + n) % 64 = 0 then waitIdle (at0 + 1) else []

/-- `PUSH "<bytes>"` at statement `at0`, where `len` bytes were pushed before (R92 assumes `len mod 4 = 0`): whole
words while four or more bytes remain, then single bytes. -/
def pushBytes (at0 len : Nat) : List Byte → List HostStmt
  | b0 :: b1 :: b2 :: b3 :: rest =>
    let first := pushAndWait at0 len 4 (pushWord (be32 b0 b1 b2 b3))
    first ++ pushBytes (at0 + first.length) (len + 4) rest
  | b :: rest =>
    let first := pushAndWait at0 len 1 (pushByte b)
    first ++ pushBytes (at0 + first.length) (len + 1) rest
  | [] => []

/-- A pseudo-operation (R92). -/
inductive Pseudo where
  | init
  | finish
  | finishRaw
  | pushW (v : Word)
  | pushB (b : Byte)
  | waitIdle
  | waitEnd
  | readDigest
  | push (bytes : List Byte)
  deriving DecidableEq, Repr

/-- The expansion of a pseudo-operation at statement `at0`, where `len` message bytes were pushed before it (R92). -/
def Pseudo.expand (at0 len : Nat) : Pseudo → List HostStmt
  | .init => [.wr .cmd 0x1#32]
  | .finish => [.wr .cmd 0x2#32]
  | .finishRaw => [.wr .cmd 0x3#32]
  | .pushW v => [pushWord v]
  | .pushB b => [pushByte b]
  | .waitIdle => Machine.waitIdle at0
  | .waitEnd => Machine.waitEnd at0
  | .readDigest => (List.finRange 8).map fun i => .rd (.digest i) none
  | .push bytes => pushBytes at0 len bytes

/-- The message length after a pseudo-operation, as the expansion of the next one needs it. -/
def Pseudo.lenAfter (len : Nat) : Pseudo → Nat
  | .init => 0
  | .pushW _ => len + 4
  | .pushB _ => len + 1
  | .push bytes => len + bytes.length
  | .finish | .finishRaw | .waitIdle | .waitEnd | .readDigest => len

/-- Expand a list of pseudo-operations, the first at statement `at0`. -/
def expandPseudos (at0 len : Nat) : List Pseudo → List HostStmt
  | [] => []
  | p :: rest =>
    let first := p.expand at0 len
    first ++ expandPseudos (at0 + first.length) (p.lenAfter len) rest

/-! ### The two agents (R13) -/

/-- What the host holds: its program, and its place and variables in it. `R` is whatever else the platform's host has
for `BUSERR_EFFECT` and `IRQ_ROUTE` to act on (log 11). -/
structure HostState (R : Type) where
  program : List HostStmt
  /-- The next statement. -/
  pc : Nat
  /-- The host variables that have been written, the last write first. -/
  vars : List (Nat × Word)
  rest : R
  deriving DecidableEq, Repr

/-- A host and the engine it drives. -/
structure System (R : Type) where
  engine : State
  host : HostState R
  deriving DecidableEq, Repr

/-- What moves: one of the two agents of R13, or the reset input (spec/70_reset_and_hazards.md R260). -/
inductive Move where
  /-- The host runs its next statement. -/
  | host
  /-- The host makes an access that is no statement of R91: any address, size, direction and data. -/
  | hostAccess (addr size : Nat) (we : Bool) (data : Word)
  /-- The engine takes a micro-step. -/
  | engine
  /-- The reset input is asserted or released. -/
  | resetInput (asserted : Bool)
  deriving DecidableEq, Repr

variable {R : Type}

/-- The value of a host variable, or none where no read has written it. -/
def HostState.var (h : HostState R) (n : Nat) : Option Word :=
  (h.vars.find? fun e => e.1 == n).map Prod.snd

/-- An access has been answered: a read's value goes to the variable `dst`, and a bus error has `BUSERR_EFFECT`
(spec/20_memory.md R62, "the host model receives `BusErr`"). -/
def HostState.answered (p : Config.Platform (HostState R)) (dst : Option Nat) (h : HostState R) :
    Response → HostState R
  | .data v => { h with vars := (dst.map fun n => (n, v)).toList ++ h.vars }
  | .busErr => p.busErrEffect h
  | .ok | .none => h

/-- The host goes on at another statement. -/
def System.jump (x : System R) (target : Nat) : System R := { x with host := { x.host with pc := target } }

/-- The engine takes an input. None where it gives no next state: an access while reset is asserted (R260, U12). -/
def System.receive (x : System R) (inp : Input) : Option (System R) :=
  match x.engine.receive inp with
  | .next e => some { x with engine := e }
  | .fault _ | .refused _ => none

/-- The host makes a bus access and gets its answer. None where the access never reaches the engine (R61; log 11) or
is refused. -/
def System.access (p : Config.Platform (HostState R)) (x : System R) (addr size : Nat) (we : Bool) (data : Word)
    (dst : Option Nat) : Option (System R) := do
  let inp ← busInput p.shaBase addr size we data
  let y ← x.receive inp
  return { y with host := y.host.answered p dst y.engine.resp }

/-- A branch (R91): to `target` where `cond` holds of the variable, else to the next statement. None where no read has
written the variable, which R91 gives no value (log 18). -/
def System.branch (x : System R) (var : Nat) (cond : Word → Bool) (target : Nat) : Option (System R) :=
  (x.host.var var).map fun v => x.jump (if cond v then target else x.host.pc + 1)

/-- One statement of the program; none at its end. -/
def System.runStmt (p : Config.Platform (HostState R)) (x : System R) : Option (System R) :=
  let next := x.jump (x.host.pc + 1)
  match x.host.program[x.host.pc]? with
  | none => none
  | some (.rd reg dst) => next.access p (p.shaBase + reg.off.toNat) 4 false 0#32 dst
  | some (.wr reg data) => next.access p (p.shaBase + reg.off.toNat) 4 true data none
  | some (.bnz n mask target) => x.branch n (fun v => v &&& mask != 0#32) target
  | some (.bz n mask target) => x.branch n (fun v => v &&& mask == 0#32) target

/-- The engine's micro-step; none where it has none: outside COMPRESS (spec/42_rounds.md R169). -/
def System.runEngine (x : System R) : Option (System R) :=
  if x.engine.st = .compress then some { x with engine := x.engine.microStep } else none

/-- What a move does before the `irq` line is looked at, or none where it is not possible. While reset is asserted only the reset input moves: "the engine
takes no step and answers no access" (R260), and "the model has no host step during reset" (U12). -/
def System.act (p : Config.Platform (HostState R)) (x : System R) : Move → Option (System R)
  | .host => if x.engine.inReset then none else x.runStmt p
  | .hostAccess addr size we data => if x.engine.inReset then none else x.access p addr size we data none
  | .engine => if x.engine.inReset then none else x.runEngine
  | .resetInput asserted => x.receive (if asserted then .resetAssert else .resetRelease)

/-- One move, at the end of which `IRQ_ROUTE` is given the level of `irq` before and after it. When the route looks at
the line is the platform's (R241, U13). DESIGN CHOICE, log 11: once at the end of every move, a branch and a reset event
among them, after the answer of an access; a route that waits keeps what it needs in `rest`. -/
def System.step (p : Config.Platform (HostState R)) (x : System R) (m : Move) : Option (System R) :=
  (x.act p m).map fun y => { y with host := p.irqRoute x.engine.irq y.engine.irq y.host }

/-- A run under a given interleaving: "The two agents' steps interleave in any order" (R13). -/
def System.run (p : Config.Platform (HostState R)) (x : System R) : List Move → Option (System R)
  | [] => some x
  | m :: rest => (x.step p m).bind fun y => y.run p rest

end Sys2Proof.Machine
end

