-- ==== Sys2Proof/Safety.lean ====
section
/-!
DEFINITION. What claims about runs are stated in: the invariant of spec/10_state.md R46, what the outside can see,
the message of a run (spec/00_scope.md R14, R17), and a safe step.
-/

namespace Sys2Proof.Machine

/-- The invariants R46 lists, in its order. -/
abbrev State.Inv (s : State) : Prop :=
  (s.st = .ready → s.cnt.val = s.len.toNat % 64) ∧
  (s.err ≠ .none ↔ s.st = .error) ∧
  (s.st = .compress → s.r.val ≤ 64) ∧
  (s.st = .compress → s.nxt = .toReady → s.cnt = 0 ∧ s.len.toNat % 64 = 0 ∧ 0 < s.len.toNat) ∧
  s.len.toNat ≤ 2 ^ 61 - 1

/-- "`cnt = 0` always holds in COMPRESS" (spec/95_test_vectors.md L2-C, from R104 and R112). -/
abbrev State.EmptyInCompress (s : State) : Prop := s.st = .compress → s.cnt = 0

/-- The next move is the host's, where an input waits: reset is not asserted, and in COMPRESS the grant is not used
up (log 2). -/
abbrev State.HostMoves (s : State) : Prop := s.inReset = false ∧ (s.st = .compress → s.grant ≠ 0)

/-- The next move is the engine's: it is in COMPRESS, reset is not asserted, and no input waits or none is granted. -/
abbrev State.EngineMoves (s : State) : Prop :=
  s.inReset = false ∧ s.st = .compress ∧ (s.inputs = [] ∨ s.grant = 0)

/-- The oldest input is an access that decodes to `i`, and the host moves next. -/
abbrev State.About (s : State) (i : Instr) : Prop :=
  s.HostMoves ∧ ∃ a rest, s.inputs = .access a :: rest ∧ decodeAccess a = .ok i

/-- The next step releases reset. -/
abbrev State.AboutToReset (s : State) : Prop :=
  s.inReset = true ∧ ∃ rest, s.inputs = .resetRelease :: rest

/-- The registers' values, the `irq` line and the last answer: all the outside can see (spec/10_state.md R34, R44). -/
structure View where
  regs : List Word
  irq : Bool
  resp : Response
  deriving DecidableEq, Repr

/-- The registers of the window (R35). -/
def allRegs : List Reg :=
  [.id, .cmd, .status, .dataWord, .dataByte, .lenLo, .lenHi, .irqEn] ++ (List.finRange 8).map .digest

/-- The operations that can raise an engine error: DATA writes and CMD writes but INIT (spec/60_exceptions.md R230). -/
def canRaise : Instr → Bool
  | .finish | .finishRaw | .cmdIllegal _ _ | .wrDataWord _ _ _ _ | .wrDataByte _ _ => true
  | .rdId | .rdCmd | .rdStatus | .rdDataWord | .rdDataByte | .rdLenLo | .rdLenHi | .rdIrqEn | .rdDigest _ => false
  | .wrId _ | .init | .wrStatus _ | .wrLenLo _ | .wrLenHi _ | .wrIrqEn _ _ _ | .wrDigest _ _ => false

/-- An input that cannot abandon a compression (spec/42_rounds.md R169): an access that is answered BusErr or decodes
to a read, an IRQ_EN write or a write to a read-only register, or the release of a reset that is not asserted. -/
def keepsCompression : Input → Bool
  | .access a =>
    match decodeAccess a with
    | .ok i => !canRaise i && i != .init
    | .error _ => true
  | .resetRelease => true
  | .resetAssert => false

/-- What the outside can see of a state. -/
def State.view (s : State) : View := ⟨allRegs.map s.readReg, s.irq, s.resp⟩

/-- The states agree on everything but what R45 calls unobservable: V, W, r and nxt outside COMPRESS, and the stale
bytes of BUF. -/
structure State.Agree (s t : State) : Prop where
  st : s.st = t.st
  h : s.h = t.h
  cnt : s.cnt = t.cnt
  len : s.len = t.len
  err : s.err = t.err
  irqEn : s.irqEn = t.irqEn
  inReset : s.inReset = t.inReset
  inputs : s.inputs = t.inputs
  resp : s.resp = t.resp
  grant : s.grant = t.grant
  draws : s.draws = t.draws
  buf : ∀ j : Fin 64, j < s.cnt → s.buf[j] = t.buf[j]
  compressing : s.st = .compress → s.nxt = t.nxt ∧ s.r = t.r ∧ s.v = t.v ∧ s.w = t.w

/-- Two outcomes agree: two next states that do, or the same refusal. -/
def Result.Agree : Result → Result → Prop
  | .next s, .next t => s.Agree t
  | .refused p, .refused q => p = q
  | .fault _, _ | _, .fault _ | .next _, .refused _ | .refused _, .next _ => False

/-! ### The message of a run -/

/-- A DATA_WORD write is accepted (spec/40_padder.md R110). -/
def State.acceptsWord (s : State) : Bool :=
  s.st == .ready && s.len.toNat % 4 == 0 && decide (s.len.toNat ≤ 2 ^ 61 - 5)

/-- A DATA_BYTE write is accepted (R111). -/
def State.acceptsByte (s : State) : Bool := s.st == .ready && s.len.toNat != 2 ^ 61 - 1

/-- What a run has been given: the bytes accepted since the last INIT or reset (spec/00_scope.md R6, R17), and whether
it was ended by FINISH_RAW. -/
structure Message where
  bytes : List Byte
  raw : Bool
  deriving DecidableEq, Repr

/-- How one operation, executed in `s`, changes the run's message. -/
def Message.after (m : Message) (s : State) : Instr → Message
  | .init => ⟨[], false⟩
  | .wrDataWord b0 b1 b2 b3 => if s.acceptsWord then ⟨m.bytes ++ [b0, b1, b2, b3], m.raw⟩ else m
  | .wrDataByte b _ => if s.acceptsByte then ⟨m.bytes ++ [b], m.raw⟩ else m
  | .finishRaw => if s.st = .ready then ⟨m.bytes, true⟩ else m
  | .finish => if s.st = .ready then ⟨m.bytes, false⟩ else m
  | .rdId | .rdCmd | .rdStatus | .rdDataWord | .rdDataByte | .rdLenLo | .rdLenHi | .rdIrqEn | .rdDigest _ => m
  | .wrId _ | .cmdIllegal _ _ | .wrStatus _ | .wrLenLo _ | .wrLenHi _ | .wrIrqEn _ _ _ | .wrDigest _ _ => m

/-- The same engine, whatever waits outside it. -/
def State.withOutside (s : State) (inReset : Bool) (inputs : List Input) (resp : Response) (grant draws : Nat) :
    State :=
  { s with inReset := inReset, inputs := inputs, resp := resp, grant := grant, draws := draws }

/-- `Run m s`: a run from reset or INIT has been given the message `m` and has come to `s`, the two agents' steps
interleaved in any order (spec/00_scope.md R13, R14). -/
inductive Run : Message → State → Prop where
  /-- Right after reset or INIT. -/
  | start (s : State) : s.st = .ready → s.h = iv → s.cnt = 0 → s.len = 0#61 → s.err = .none → Run ⟨[], false⟩ s
  /-- The host makes an access that decodes. -/
  | host {m : Message} {s t : State} (i : Instr) : Run m s → exec i s = .next t → Run (m.after s i) t
  /-- The engine takes a micro-step. -/
  | engine {m : Message} {s : State} : Run m s → Run m s.microStep
  /-- Something changes outside the engine. -/
  | outside {m : Message} {s : State} (inReset : Bool) (inputs : List Input) (resp : Response) (grant draws : Nat) :
    Run m s → Run m (s.withOutside inReset inputs resp grant draws)

/-- "It ends when `S.st` first becomes DONE or ERROR" (R14). -/
def State.runEnded (s : State) : Bool := s.st == .done || s.st == .error

/-- A step is safe when it gives a next state. -/
def State.safe (s : State) : Prop := ∃ t, step s = .next t

end Sys2Proof.Machine
end

