-- ==== Sys2Proof/Certificates/Slice0/Obligations.lean ====
section
/-!
DEFINITION. The statements for the provers. Each docstring names the rule of spec/ it formalises; "model's choice"
marks what rests on an entry of the assumption log.
-/

open Sys2Proof Sys2Proof.Machine

/-! ### Encoding -/

/-- Access words written out from R80 and R86 decode to the operations they stand for. -/
def Obligations.WrittenWordsDecode : Prop :=
  decode 0x4400000001#39 = .ok .init ∧
  decode 0x4400000011#39 = .ok (.cmdIllegal 1#28 1#4) ∧
  decode 0x4C61626364#39 = .ok (.wrDataWord 0x61#8 0x62#8 0x63#8 0x64#8) ∧
  decode 0x5000000061#39 = .ok (.wrDataByte 0x61#8 0#24) ∧
  decode 0x5C00000001#39 = .ok (.wrIrqEn true false 0#30) ∧
  decode 0x0800000000#39 = .ok .rdStatus ∧
  decode 0x3C00000000#39 = .ok (.rdDigest 7)

/-- R89: every access decodes to the first matching row of the table of R86, and where its size or alignment is wrong
(R62) to a bus error, where no row matches. -/
def Obligations.DecoderIsFirstMatchOrBusErr : Prop :=
  ∀ a : Access,
    (a.size = 4 ∧ a.off.extractLsb' 0 2 = 0#2 →
      ∃ i, decodeAccess a = .ok i ∧ i.wf = true ∧ firstMatch (accessWord a.we a.off a.data) = some i.mnemonic) ∧
    (¬(a.size = 4 ∧ a.off.extractLsb' 0 2 = 0#2) → ∃ e, decodeAccess a = .error e) ∧
    (a.off.extractLsb' 0 2 ≠ 0#2 → firstMatch (accessWord a.we a.off a.data) = none)

/-- Decoding the word of a well-formed operation gives it back, with every operand at every value (R80 to R86). -/
def Obligations.DecodeEncodeRoundTrip : Prop :=
  ∀ i : Instr, i.wf = true → decode (encode i) = .ok i

/-- The word an operation was decoded from is the operation's word, but that a read's DATA bits, which no row's mask
covers, come back as 0 (R80). -/
def Obligations.EncodeDecodeRoundTrip : Prop :=
  ∀ (a : AccessWord) (i : Instr), decode a = .ok i →
    i.wf = true ∧ encode i = (if i.isWrite then a else accessWord false (wordOff a) 0#32)

/-- R86: only CMD_ILLEGAL overlaps other rows, and these are INIT, FINISH and FINISH_RAW. -/
def Obligations.OnlyCmdIllegalOverlapsOtherRows : Prop :=
  ∀ p ∈ opcodeRows, ∀ q ∈ opcodeRows, p ≠ q →
    (∃ a : AccessWord, a &&& p.mask = p.pattern ∧ a &&& q.mask = q.pattern) →
    (p.mnemonic = "CMD_ILLEGAL" ∧ q ∈ exactRows) ∨ (q.mnemonic = "CMD_ILLEGAL" ∧ p ∈ exactRows)

/-- R61: an address of the window has the offset `addr − SHA_BASE`; an address outside never reaches the engine. -/
def Obligations.WindowDecodesItsOffsets : Prop :=
  ∀ base addr : Nat,
    (∀ k < 64, windowOff base (base + k) = some (BitVec.ofNat 6 k)) ∧
    (addr < base ∨ base + 63 < addr → windowOff base addr = none ∧
      ∀ size we data, busInput base addr size we data = none)

/-! ### The step -/

/-- Where the host moves and the oldest input is an access, the step is that access, executed in the state with it taken
from the queue: the operation it decodes to, or a bus error. The queue and the grant are the model's choice (log 2,
log 3). -/
def Obligations.StepRunsDecodedOperation : Prop :=
  ∀ (s : State) (a : Access) (rest : List Input), s.HostMoves → s.inputs = .access a :: rest →
    (∀ i, decodeAccess a = .ok i → step s = exec i { s with inputs := rest, grant := s.grant - 1 }) ∧
    (∀ e, decodeAccess a = .error e →
      step s = .next { s with inputs := rest, grant := s.grant - 1, resp := .busErr })

/-- R62: an access of the wrong size or alignment is answered BusErr and changes no engine state; any other is the
read or write operation of its offset. -/
def Obligations.BadAccessAnswersBusErr : Prop :=
  ∀ (s : State) (a : Access),
    (a.size ≠ 4 ∨ a.off.extractLsb' 0 2 ≠ 0#2 → s.busAccess a = .next { s with resp := .busErr }) ∧
    (a.size = 4 → a.off.extractLsb' 0 2 = 0#2 →
      ∃ i : Instr, i.isWrite = a.we ∧ i.reg.off = a.off ∧ s.busAccess a = exec i s)

/-- R22, R169: in READY, DONE and ERROR the engine has no step; with no input waiting the machine stays as it is
(that a step then answers the same state is the model's choice: log 5). -/
def Obligations.IdleOutsideCompress : Prop :=
  ∀ s : State, s.st ≠ .compress →
    s.microStep = s ∧ (s.inReset = false → s.inputs = [] → step s = .next s)

/-- A step is refused exactly for an access while reset is asserted (U12 of 93_implementation_defined.md): everything
else the engine can meet gives a next state. Model's choice: that reset and accesses are events of one queue (log 3,
log 6), and that a step with no agent to move answers the same state at all (log 5). -/
def Obligations.StepRefusesOnlyAccessInReset : Prop :=
  ∀ s : State,
    (∀ p, step s = .refused p ↔
      p = .accessDuringReset ∧ s.inReset = true ∧ ∃ a rest, s.inputs = .access a :: rest) ∧
    ((s.inReset = false ∨ ∀ a rest, s.inputs ≠ .access a :: rest) → s.safe)

/-- R13: where the engine moves, the step is its micro-step; in COMPRESS every other step uses up one grant, so the
engine moves after at most `grant` inputs. The grant and its draws are the model's choice (log 2). -/
def Obligations.EngineMovesWithinItsGrant : Prop :=
  ∀ s : State,
    (s.EngineMoves →
      step s = .next { s.microStep with grant := Config.freeGrant s.draws, draws := s.draws + 1 }) ∧
    ∀ t : State, s.st = .compress → s.inReset = false → ¬s.EngineMoves → step s = .next t → t.grant + 1 = s.grant

/-! ### Reads -/

/-- R211: RD_ID, the read of offset 0x00, returns 0x53484132 and changes nothing. -/
def Obligations.ReadIdReturnsItsConstant : Prop :=
  (∀ d, decodeFields false 0x00#6 d = .ok .rdId) ∧
  ∀ s : State, exec .rdId s = .next { s with resp := .data 0x53484132#32 }

/-- R212 with the layout of R38: RD_STATUS, the read of offset 0x08, returns the STATUS word and changes nothing;
exactly one of bits [3:0] is 1. -/
def Obligations.ReadStatusShowsTheState : Prop :=
  (∀ d, decodeFields false 0x08#6 d = .ok .rdStatus) ∧
  ∀ s : State, ∃ x : Word,
    exec .rdStatus s = .next { s with resp := .data x } ∧
    x.getLsbD 0 = decide (s.st = .compress) ∧
    x.getLsbD 1 = decide (s.st = .done) ∧
    x.getLsbD 2 = decide (s.st = .error) ∧
    x.getLsbD 3 = decide (s.st = .ready) ∧
    x.getLsbD 4 = decide (s.st = .compress ∧ s.nxt ≠ .toReady) ∧
    x.getLsbD 5 = s.irq ∧
    x.extractLsb' 6 2 = 0#2 ∧
    x.extractLsb' 8 4 = s.err.code ∧
    x.extractLsb' 12 4 = 0#4 ∧
    x.extractLsb' 16 6 = BitVec.ofNat 6 s.cnt.val ∧
    x.extractLsb' 22 10 = 0#10 ∧
    (x.extractLsb' 0 4 = 1#4 ∨ x.extractLsb' 0 4 = 2#4 ∨ x.extractLsb' 0 4 = 4#4 ∨ x.extractLsb' 0 4 = 8#4)

/-- R213: RD_LEN_LO and RD_LEN_HI, the reads of offsets 0x14 and 0x18, return the halves of LEN × 8 and change
nothing. -/
def Obligations.ReadLengthIsTheBitLength : Prop :=
  (∀ d, decodeFields false 0x14#6 d = .ok .rdLenLo ∧ decodeFields false 0x18#6 d = .ok .rdLenHi) ∧
  ∀ s : State,
    exec .rdLenLo s = .next { s with resp := .data (BitVec.ofNat 32 (8 * s.len.toNat)) } ∧
    exec .rdLenHi s = .next { s with resp := .data (BitVec.ofNat 32 (8 * s.len.toNat / 2 ^ 32)) }

/-- R215: RD_IRQ_EN, the read of offset 0x1C, returns the two enables zero-extended and changes nothing. -/
def Obligations.ReadIrqEnZeroExtends : Prop :=
  (∀ d, decodeFields false 0x1C#6 d = .ok .rdIrqEn) ∧
  ∀ s : State, exec .rdIrqEn s = .next { s with resp := .data (BitVec.ofNat 32 s.irqEn.toNat) }

/-- R217: reads of the write-only registers, at offsets 0x04, 0x0C and 0x10, return 0 and change nothing. -/
def Obligations.ReadWriteOnlyRegistersIsZero : Prop :=
  (∀ d, decodeFields false 0x04#6 d = .ok .rdCmd ∧ decodeFields false 0x0C#6 d = .ok .rdDataWord ∧
    decodeFields false 0x10#6 d = .ok .rdDataByte) ∧
  ∀ s : State, ∀ i ∈ [Instr.rdCmd, .rdDataWord, .rdDataByte], exec i s = .next { s with resp := .data 0#32 }

/-- R187: RD_DIGEST, the read of offset 0x20 + 4i, returns H[i] in every state and changes nothing. -/
def Obligations.ReadDigestIsTheHashState : Prop :=
  ∀ (s : State) (i : Fin 8),
    (∀ d, decodeFields false (BitVec.ofNat 6 (0x20 + 4 * i.val)) d = .ok (.rdDigest i)) ∧
    exec (.rdDigest i) s = .next { s with resp := .data s.h[i] }

/-- R66: no read has a side effect, and a repeated read returns the same value. -/
def Obligations.ReadsChangeNothing : Prop :=
  ∀ (s : State) (i : Instr), i.isWrite = false →
    ∃ x, exec i s = .next { s with resp := .data x } ∧
      exec i { s with resp := .data x } = .next { s with resp := .data x }

/-! ### Writes to the control registers -/

/-- R216: a write to a read-only register (offsets 0x00, 0x08, 0x14, 0x18, 0x20 to 0x3C) changes nothing, in every
state. -/
def Obligations.WriteReadOnlyIsIgnored : Prop :=
  (∀ d, decodeFields true 0x00#6 d = .ok (.wrId d) ∧ decodeFields true 0x08#6 d = .ok (.wrStatus d) ∧
    decodeFields true 0x14#6 d = .ok (.wrLenLo d) ∧ decodeFields true 0x18#6 d = .ok (.wrLenHi d) ∧
    ∀ j : Fin 8, decodeFields true (BitVec.ofNat 6 (0x20 + 4 * j.val)) d = .ok (.wrDigest j d)) ∧
  ∀ (s : State) (data : Word),
    (∀ i ∈ [Instr.wrId data, .wrStatus data, .wrLenLo data, .wrLenHi data], exec i s = .next { s with resp := .ok }) ∧
    ∀ j : Fin 8, exec (.wrDigest j data) s = .next { s with resp := .ok }

/-- R214: WR_IRQ_EN sets the two enables, in every state, and changes nothing else; for any word v written to IRQ_EN
they are v[1:0]. -/
def Obligations.WriteIrqEnKeepsTwoBits : Prop :=
  ∀ s : State,
    (∀ (doneIe errIe : Bool) (ignored : BitVec 30), exec (.wrIrqEn doneIe errIe ignored) s =
      .next { s with irqEn := BitVec.ofBool errIe ++ BitVec.ofBool doneIe, resp := .ok }) ∧
    ∀ v : Word, ∃ i, decodeFields true 0x1C#6 v = .ok i ∧
      exec i s = .next { s with irqEn := v.extractLsb' 0 2, resp := .ok }

/-- R240 and the ways of clearing of R241: the interrupt line is a level, which STATUS bit 5 reads and which is 0 at
reset. -/
def Obligations.InterruptLineIsALevel : Prop :=
  ∀ s t : State,
    (s.irq = true ↔ (s.st = .done ∧ s.irqEn.getLsbD 0 = true) ∨ (s.st = .error ∧ s.irqEn.getLsbD 1 = true)) ∧
    s.status.getLsbD 5 = s.irq ∧
    State.reset.irq = false ∧
    (exec .init s = .next t → t.irq = false) ∧
    (∀ e x, s.st = .done → exec (.wrIrqEn false e x) s = .next t → t.irq = false) ∧
    (∀ d x, s.st = .error → exec (.wrIrqEn d false x) s = .next t → t.irq = false)

/-! ### Commands -/

/-- R201: INIT, the value 1 written to CMD, starts a new run in every state, leaves `irq_en`, BUF, nxt, r, V and W as they are, and STATUS becomes
0x00000008. -/
def Obligations.InitStartsANewRun : Prop :=
  decodeFields true 0x04#6 0x00000001#32 = .ok .init ∧
  ∀ s : State, ∃ t : State, exec .init s = .next t ∧
    t = { s with st := .ready, h := iv, cnt := 0, len := 0#61, err := .none, resp := .ok } ∧
    t.status = 0x00000008#32 ∧ t.irq = false

/-- R112, which FINISH, the value 2 written to CMD, runs in READY (R202): the block handed over is BUF with the marker
at `cnt`, zeros, and the length field where it fits; nothing else changes. -/
def Obligations.FinishBuildsTheFinalBlock : Prop :=
  decodeFields true 0x04#6 0x00000002#32 = .ok .finish ∧
  ∀ s : State, s.st = .ready → ∃ b : Block,
    (∀ j : Fin 64, j < s.cnt → b[j] = s.buf[j]) ∧
    b[s.cnt] = 0x80#8 ∧
    (s.cnt.val ≤ 55 →
      (∀ j : Fin 64, s.cnt < j → j.val < 56 → b[j] = 0x00#8) ∧
      ∀ k : Fin 8, b[56 + k.val] = BitVec.ofNat 8 (8 * s.len.toNat / 256 ^ (7 - k.val))) ∧
    (55 < s.cnt.val → ∀ j : Fin 64, s.cnt < j → b[j] = 0x00#8) ∧
    exec .finish s =
      .next { s with
        st := .compress, w := expand b, v := s.h, r := 0
        nxt := if s.cnt.val ≤ 55 then .toDone else .toPad2
        buf := b, cnt := 0, resp := .ok }

/-- R203: FINISH_RAW, the value 3 written to CMD, ends the run in READY, or raises MALFORMED_INPUT where the length is
no positive multiple of 64; in the other states it is BUSY, SEQUENCE and ignored. -/
def Obligations.FinishRawEndsOrRejects : Prop :=
  decodeFields true 0x04#6 0x00000003#32 = .ok .finishRaw ∧
  ∀ s : State,
    (s.st = .ready → s.len.toNat = 0 ∨ s.cnt ≠ 0 →
      exec .finishRaw s = .next { s with st := .error, err := .malformedInput, resp := .ok }) ∧
    (s.st = .ready → s.len.toNat ≠ 0 → s.cnt = 0 → exec .finishRaw s = .next { s with st := .done, resp := .ok }) ∧
    (s.st = .compress → exec .finishRaw s = .next { s with st := .error, err := .busy, resp := .ok }) ∧
    (s.st = .done → exec .finishRaw s = .next { s with st := .error, err := .sequence, resp := .ok }) ∧
    (s.st = .error → exec .finishRaw s = .next { s with resp := .ok })

/-- R204: an illegal command, any value but 1, 2 and 3 written to CMD, raises BAD_CMD from READY and DONE, BUSY in
COMPRESS, and is ignored in ERROR. -/
def Obligations.IllegalCommandRaisesBadCmd : Prop :=
  (∀ v : Word, v ≠ 1#32 → v ≠ 2#32 → v ≠ 3#32 →
    decodeFields true 0x04#6 v = .ok (.cmdIllegal (v.extractLsb' 4 28) (v.extractLsb' 0 4))) ∧
  ∀ (s : State) (rsvd : BitVec 28) (op : BitVec 4),
    (s.st = .ready ∨ s.st = .done →
      exec (.cmdIllegal rsvd op) s = .next { s with st := .error, err := .badCmd, resp := .ok }) ∧
    (s.st = .compress →
      exec (.cmdIllegal rsvd op) s = .next { s with st := .error, err := .busy, resp := .ok }) ∧
    (s.st = .error → exec (.cmdIllegal rsvd op) s = .next { s with resp := .ok })

/-- R200: every write of a word v to CMD is decided by these tests, in this order. -/
def Obligations.CmdWriteDecision : Prop :=
  ∀ (s : State) (v : Word), ∃ i, decodeFields true 0x04#6 v = .ok i ∧
    exec i s = .next { (if v = 1#32 then s.startRun
      else if s.st = .error then s
      else if s.st = .compress then s.raiseError .busy
      else if v ≠ 2#32 ∧ v ≠ 3#32 then s.raiseError .badCmd
      else if s.st = .done then s.raiseError .sequence
      else if v = 2#32 then s.padFinal
      else s.endRaw) with resp := .ok }

/-! ### Taking in bytes -/

/-- R110: WR_DATA_WORD, the write of offset 0x0C. The tests come in the rule's order; where none fails the four bytes are appended in order, and
the write that fills the block starts its compression in the same step; nothing else changes. `State.Inv` rules out
only states no run reaches. -/
def Obligations.DataWordAppendsFourBytes : Prop :=
  (∀ v : Word, decodeFields true 0x0C#6 v = .ok
    (.wrDataWord (v.extractLsb' 24 8) (v.extractLsb' 16 8) (v.extractLsb' 8 8) (v.extractLsb' 0 8))) ∧
  ∀ (s : State) (b0 b1 b2 b3 : Byte), s.Inv →
    let i := Instr.wrDataWord b0 b1 b2 b3
    (s.st = .error → exec i s = .next { s with resp := .ok }) ∧
    (s.st = .compress → exec i s = .next { s with st := .error, err := .busy, resp := .ok }) ∧
    (s.st = .done → exec i s = .next { s with st := .error, err := .sequence, resp := .ok }) ∧
    (s.st = .ready → s.len.toNat % 4 ≠ 0 →
      exec i s = .next { s with st := .error, err := .wordMisaligned, resp := .ok }) ∧
    (s.st = .ready → s.len.toNat % 4 = 0 → s.len.toNat > 2 ^ 61 - 5 →
      exec i s = .next { s with st := .error, err := .lengthOverflow, resp := .ok }) ∧
    (s.st = .ready → s.len.toNat % 4 = 0 → s.len.toNat ≤ 2 ^ 61 - 5 → ∃ b : Block,
      (∀ j : Fin 64, b[j] =
        if j.val = s.cnt.val then b0
        else if j.val = s.cnt.val + 1 then b1
        else if j.val = s.cnt.val + 2 then b2
        else if j.val = s.cnt.val + 3 then b3
        else s.buf[j]) ∧
      (s.cnt.val < 60 → exec i s = .next { s with buf := b, cnt := s.cnt + 4, len := s.len + 4#61, resp := .ok }) ∧
      (60 ≤ s.cnt.val → exec i s =
        .next { s with
          buf := b, cnt := 0, len := s.len + 4#61
          st := .compress, w := expand b, v := s.h, r := 0, nxt := .toReady, resp := .ok }))

/-- R106: a DATA_WORD write fills the block only with its last byte, so no byte of it follows a StartCompress. -/
def Obligations.DataWordFillsBlockOnlyWithLastByte : Prop :=
  ∀ (s : State) (b0 b1 b2 : Byte), s.Inv → s.st = .ready → s.len.toNat % 4 = 0 → s.len.toNat ≤ 2 ^ 61 - 5 →
    (s.appendByte b0).st = .ready ∧ ((s.appendByte b0).appendByte b1).st = .ready ∧
    (((s.appendByte b0).appendByte b1).appendByte b2).st = .ready

/-- R111: WR_DATA_BYTE, the write of offset 0x10. The tests come in the rule's order; where none fails the byte is appended, and the byte that
fills the block starts its compression in the same step; nothing else changes. -/
def Obligations.DataByteAppendsOneByte : Prop :=
  (∀ v : Word, decodeFields true 0x10#6 v = .ok (.wrDataByte (v.extractLsb' 0 8) (v.extractLsb' 8 24))) ∧
  ∀ (s : State) (x : Byte) (ignored : BitVec 24),
    let i := Instr.wrDataByte x ignored
    (s.st = .error → exec i s = .next { s with resp := .ok }) ∧
    (s.st = .compress → exec i s = .next { s with st := .error, err := .busy, resp := .ok }) ∧
    (s.st = .done → exec i s = .next { s with st := .error, err := .sequence, resp := .ok }) ∧
    (s.st = .ready → s.len.toNat = 2 ^ 61 - 1 →
      exec i s = .next { s with st := .error, err := .lengthOverflow, resp := .ok }) ∧
    (s.st = .ready → s.len.toNat ≠ 2 ^ 61 - 1 → ∃ b : Block,
      (∀ j : Fin 64, b[j] = if j = s.cnt then x else s.buf[j]) ∧
      (s.cnt.val < 63 → exec i s = .next { s with buf := b, cnt := s.cnt + 1, len := s.len + 1#61, resp := .ok }) ∧
      (s.cnt.val = 63 → exec i s =
        .next { s with
          buf := b, cnt := 0, len := s.len + 1#61
          st := .compress, w := expand b, v := s.h, r := 0, nxt := .toReady, resp := .ok }))

/-! ### Errors -/

/-- The columns COMPRESS and DONE of the table of R232: a DATA write or a command but INIT raises BUSY in COMPRESS (the
compression is abandoned and H keeps its value), and in DONE an illegal command raises BAD_CMD and every other SEQUENCE.
All other operations raise nothing in any state: INIT starts a new run, an IRQ_EN write sets the enables, a write to a
read-only register changes nothing, and a read returns its register's value. -/
def Obligations.WritesRejectedOutsideReady : Prop :=
  ∀ (s : State) (i : Instr),
    (canRaise i = true → s.st = .compress →
      exec i s = .next { s with st := .error, err := .busy, resp := .ok }) ∧
    (canRaise i = true → s.st = .done →
      exec i s = .next { s with
        st := .error, resp := .ok
        err := if i.mnemonic = "CMD_ILLEGAL" then .badCmd else .sequence }) ∧
    (i = .init →
      exec i s = .next { s with st := .ready, h := iv, cnt := 0, len := 0#61, err := .none, resp := .ok }) ∧
    (∀ d e x, i = .wrIrqEn d e x →
      exec i s = .next { s with irqEn := BitVec.ofBool e ++ BitVec.ofBool d, resp := .ok }) ∧
    (i.isWrite = true → canRaise i = false → i ≠ .init → (∀ d e x, i ≠ .wrIrqEn d e x) →
      exec i s = .next { s with resp := .ok }) ∧
    (i.isWrite = false → exec i s = .next { s with resp := .data (s.readReg i.reg) })

/-- R234: in ERROR only INIT, IRQ_EN writes and reads act; every other write is ignored and `err` keeps the first
code. -/
def Obligations.ErrorIgnoresOtherWrites : Prop :=
  ∀ s : State, s.st = .error →
    (∀ i : Instr, i.isWrite = true → i ≠ .init → (∀ d e x, i ≠ .wrIrqEn d e x) →
      exec i s = .next { s with resp := .ok }) ∧
    exec .init s = .next { s with st := .ready, h := iv, cnt := 0, len := 0#61, err := .none, resp := .ok } ∧
    (∀ d e x, exec (.wrIrqEn d e x) s =
      .next { s with irqEn := BitVec.ofBool e ++ BitVec.ofBool d, resp := .ok }) ∧
    ∀ i : Instr, i.isWrite = false → exec i s = .next { s with resp := .data (s.readReg i.reg) }

/-- R233: where an operation brings the engine into ERROR, it sets `st` and `err` and changes nothing else. -/
def Obligations.ErrorEntryChangesNothingElse : Prop :=
  ∀ (s t : State) (i : Instr), exec i s = .next t → s.st ≠ .error → t.st = .error →
    canRaise i = true ∧ t.err ≠ .none ∧ t = { s with st := .error, err := t.err, resp := .ok }

/-- R236: only INIT and reset leave ERROR, and both start a new, empty run. -/
def Obligations.ErrorLeftOnlyByInitOrReset : Prop :=
  ∀ s t : State, step s = .next t → s.st = .error → t.st ≠ .error →
    (s.About .init ∨ s.AboutToReset) ∧
    t.st = .ready ∧ t.h = iv ∧ t.cnt = 0 ∧ t.len = 0#61 ∧ t.err = .none

/-! ### Who writes what -/

/-- R23: H is written only by reset, INIT and the UPDATE micro-step. -/
def Obligations.HashStateWrittenOnlyByInitResetUpdate : Prop :=
  ∀ s t : State, step s = .next t → t.h ≠ s.h →
    s.About .init ∨ s.AboutToReset ∨ (s.EngineMoves ∧ s.r.val = 64)

/-- R28: `irq_en` is written only by IRQ_EN writes and reset, which clears it; INIT does not change it. -/
def Obligations.IrqEnWrittenOnlyByItsRegisterOrReset : Prop :=
  ∀ s t : State, step s = .next t → t.irqEn ≠ s.irqEn →
    (s.AboutToReset ∧ t.irqEn = 0b00#2) ∨
    ∃ d e x, s.About (.wrIrqEn d e x) ∧ t.irqEn = BitVec.ofBool e ++ BitVec.ofBool d

/-- R27: `err` is set only by the error entry and cleared only by INIT and reset. -/
def Obligations.ErrorCodeWrittenOnlyByErrorEntryInitReset : Prop :=
  ∀ s t : State, step s = .next t → t.err ≠ s.err →
    (t.err = .none ∧ (s.About .init ∨ s.AboutToReset)) ∨
    (t.err ≠ .none ∧ t.st = .error ∧ ∃ i, s.About i ∧ canRaise i = true)

/-- R26: LEN goes back to 0 at INIT and reset, grows by one for each accepted byte, and never wraps. -/
def Obligations.LengthGrowsOnlyByAcceptedBytes : Prop :=
  ∀ s t : State, step s = .next t → t.len ≠ s.len →
    ((s.About .init ∨ s.AboutToReset) ∧ t.len = 0#61) ∨
    (∃ b0 b1 b2 b3, s.About (.wrDataWord b0 b1 b2 b3) ∧ t.len.toNat = s.len.toNat + 4) ∨
    (∃ b x, s.About (.wrDataByte b x) ∧ t.len.toNat = s.len.toNat + 1)

/-- R21: `st` changes only at INIT, at a write that can raise an error or start a compression, at the UPDATE
micro-step and at reset. -/
def Obligations.EngineStateChangesOnlyOnNamedEvents : Prop :=
  ∀ s t : State, step s = .next t → t.st ≠ s.st →
    s.AboutToReset ∨ (s.EngineMoves ∧ s.r.val = 64) ∨ s.About .init ∨ ∃ i, s.About i ∧ canRaise i = true

/-! ### Invariants -/

/-- R46 at reset. -/
def Obligations.InvariantAtReset : Prop := State.reset.Inv ∧ State.reset.EmptyInCompress

/-- R46: every step keeps its five invariants, from every state that has them. -/
def Obligations.InvariantKeptByEveryStep : Prop :=
  ∀ s t : State, s.Inv → step s = .next t → t.Inv

/-- While a block is compressed no byte is buffered (R104, R112), and every step keeps that. -/
def Obligations.NoBytesBufferedWhileCompressing : Prop :=
  ∀ s t : State, s.Inv → s.EmptyInCompress → step s = .next t → t.EmptyInCompress

/-- R45: V, W, r and nxt outside COMPRESS, and the stale bytes of BUF, are unobservable. States that agree on the rest
look the same, and their steps keep agreeing. -/
def Obligations.UnobservableStateHasNoEffect : Prop :=
  ∀ s t : State, s.Agree t → s.view = t.view ∧ Result.Agree (step s) (step t)

/-! ### The engine's micro-steps -/

/-- R165 with R155 to R157: the ROUND micro-step. -/
def Obligations.RoundMicroStep : Prop :=
  ∀ (s : State) (i : Fin 64), s.st = .compress → s.r.val = i.val →
    let t1 := s.v[7] + bigSigma1 s.v[4] + ch s.v[4] s.v[5] s.v[6] + roundConstants[i] + s.w[i]
    let t2 := bigSigma0 s.v[0] + maj s.v[0] s.v[1] s.v[2]
    s.microStep = { s with
      v := #v[t1 + t2, s.v[0], s.v[1], s.v[2], s.v[3] + t1, s.v[4], s.v[5], s.v[6]]
      r := s.r + 1 }

/-- R166 with R181 and R113: the UPDATE micro-step. -/
def Obligations.UpdateMicroStep : Prop :=
  ∀ s : State, s.st = .compress → s.r.val = 64 → ∃ (h : Words8) (b : Block),
    (∀ j : Fin 8, h[j] = s.h[j] + s.v[j]) ∧
    (∀ j : Fin 64, j.val < 56 → b[j] = 0x00#8) ∧
    (∀ k : Fin 8, b[56 + k.val] = BitVec.ofNat 8 (8 * s.len.toNat / 256 ^ (7 - k.val))) ∧
    (s.nxt = .toReady → s.microStep = { s with h := h, st := .ready }) ∧
    (s.nxt = .toDone → s.microStep = { s with h := h, st := .done }) ∧
    (s.nxt = .toPad2 →
      s.microStep = { s with h := h, buf := b, w := expand b, v := h, r := 0, nxt := .toDone })

/-- R167: after StartCompress, 64 ROUND steps and one UPDATE give H the value `Compress(H, blk)`; H keeps its value and
the engine stays in COMPRESS until then. -/
def Obligations.CompressionIsSixtyFiveMicroSteps : Prop :=
  ∀ (s : State) (blk : Block) (target : Target),
    let after (k : Nat) := State.microStep^[k] (s.startCompress blk target)
    (∀ k < 65, (after k).st = .compress ∧ (after k).h = s.h ∧ (after k).r.val = k) ∧
    (after 65).h = compress s.h blk ∧
    (target = .toReady → (after 65).st = .ready) ∧
    (target = .toDone → (after 65).st = .done) ∧
    (target = .toPad2 →
      (after 65).st = .compress ∧ (after 65).nxt = .toDone ∧ (after 65).r = 0 ∧ (after 65).buf = padBlock2 s.len)

/-- R108, R265: with no input waiting, FINISH in READY is followed by exactly 65 steps in COMPRESS, or 130 where the
length field does not fit, and then by DONE with the final block or blocks compressed. -/
def Obligations.FinishEndsAfter65Or130Steps : Prop :=
  ∀ s t : State, s.st = .ready → s.inReset = false → s.inputs = [] → exec .finish s = .next t →
    let n := if s.cnt.val ≤ 55 then 65 else 130
    let first := compress s.h (padFinalBlock s.buf s.cnt s.len)
    (∀ k < n, ∃ u, core.run k t = .next u ∧ State.st u = .compress) ∧
    ∃ u : State, core.run n t = .next u ∧ u.st = .done ∧
      u.h = if s.cnt.val ≤ 55 then first else compress first (padBlock2 s.len)

/-- R169: a compression that is not abandoned always finishes, also with reads, IRQ_EN writes, writes to read-only
registers and accesses answered BusErr waiting, in any number. -/
def Obligations.CompressionAlwaysEnds : Prop :=
  ∀ s : State, s.st = .compress → s.inReset = false → (∀ inp ∈ s.inputs, keepsCompression inp = true) →
    ∃ k ≤ 130 + s.inputs.length, ∃ u : State, core.run k s = .next u ∧ (u.st = .ready ∨ u.st = .done)

/-- R235, last paragraph: a FINISH that arrives as a compression ends is taken before the UPDATE step (BUSY) or after
it (accepted); both orders are runs of the model (the grant is the model's choice: log 2). -/
def Obligations.RaceAtTheEndOfACompression : Prop :=
  ∀ s : State, s.EmptyInCompress → s.st = .compress → s.r.val = 64 → s.nxt = .toReady → s.inReset = false →
    s.inputs = [.access Instr.finish.access] →
    (0 < s.grant → ∃ t : State, core.run 1 s = .next t ∧ t.st = .error ∧ t.err = .busy ∧ t.h = s.h) ∧
    (s.grant = 0 → ∃ t : State, core.run 2 s = .next t ∧ t.st = .compress ∧ t.nxt = .toDone ∧
      t.h = updateState s.h s.v)

/-! ### The algorithm -/

/-- R134, R135: the schedule's first sixteen words are the block's big-endian words, and the others meet the
recurrence. -/
def Obligations.ExpandMeetsTheRecurrence : Prop :=
  ∀ blk : Block,
    (∀ t (_ : t < 16),
      (expand blk)[t] = blk[4 * t] ++ blk[4 * t + 1] ++ blk[4 * t + 2] ++ blk[4 * t + 3]) ∧
    ∀ i (_ : 16 ≤ i ∧ i < 64),
      (expand blk)[i] =
        (expand blk)[i - 16] + smallSigma0 (expand blk)[i - 15] + (expand blk)[i - 7] +
          smallSigma1 (expand blk)[i - 2]

/-- R130: bit i of `rotr(x, n)` is bit (i + n) mod 32 of x. -/
def Obligations.RotateIsBitwise : Prop :=
  ∀ (x : Word) (n i : Nat), 0 < n → n < 32 → i < 32 → (rotr x n).getLsbD i = x.getLsbD ((i + n) % 32)

/-- R132, R133, R151 to R154: the sigma functions, choose and majority, bit by bit. -/
def Obligations.SigmaChooseMajorityBits : Prop :=
  ∀ (x y z : Word) (i : Nat), i < 32 →
    let bit (n : Nat) := x.getLsbD ((i + n) % 32)
    let shifted (n : Nat) := decide (i + n < 32) && x.getLsbD (i + n)
    (smallSigma0 x).getLsbD i = (bit 7 ^^ bit 18 ^^ shifted 3) ∧
    (smallSigma1 x).getLsbD i = (bit 17 ^^ bit 19 ^^ shifted 10) ∧
    (bigSigma0 x).getLsbD i = (bit 2 ^^ bit 13 ^^ bit 22) ∧
    (bigSigma1 x).getLsbD i = (bit 6 ^^ bit 11 ^^ bit 25) ∧
    (ch x y z).getLsbD i = (if x.getLsbD i then y.getLsbD i else z.getLsbD i) ∧
    (maj x y z).getLsbD i =
      decide (2 ≤ (x.getLsbD i).toNat + (y.getLsbD i).toNat + (z.getLsbD i).toNat)

/-- R150, R180: each round constant is the first 32 bits of the fractional part of the cube root of its prime, and each
word of the initial vector that of the square root. -/
def Obligations.ConstantsAreRootsOfPrimes : Prop :=
  let primes := (List.range 312).filter fun n => decide (Nat.Prime n)
  primes.length = 64 ∧
  (∀ i : Fin 64, ∃ p n, primes[i.val]? = some p ∧ n ^ 3 ≤ p * 2 ^ 96 ∧ p * 2 ^ 96 < (n + 1) ^ 3 ∧
    roundConstants[i] = BitVec.ofNat 32 n) ∧
  (∀ j : Fin 8, ∃ p n, primes[j.val]? = some p ∧ n ^ 2 ≤ p * 2 ^ 64 ∧ p * 2 ^ 64 < (n + 1) ^ 2 ∧
    iv[j] = BitVec.ofNat 32 n)

/-- R186: the digest is 32 bytes, and byte 4j + k is bits [31 − 8k : 24 − 8k] of H[j]. -/
def Obligations.SerializeIsBigEndian : Prop :=
  ∀ h : Words8, (serialize h).length = 32 ∧
    ∀ (j : Fin 8) (k : Fin 4), (serialize h)[4 * j.val + k.val]? = some (h[j].extractLsb' (24 - 8 * k.val) 8)

/-- R100 to R102: the parts of the padded message, the source's formula for the zero run, and the length. -/
def Obligations.PadHasItsParts : Prop :=
  ∀ m : List Byte, m.length < 2 ^ 61 →
    let l := m.length
    pad m = m ++ [0x80#8] ++ List.replicate (((512 - (8 * l + 72) % 512) % 512) / 8) 0x00#8 ++
      (List.range 8).map (fun k => BitVec.ofNat 8 (8 * l / 256 ^ (7 - k))) ∧
    ((512 - (8 * l + 72) % 512) % 512) / 8 = zeroRun l ∧
    (pad m).length = l + 9 + zeroRun l ∧
    (pad m).length = 64 * ((l + 8) / 64 + 1) ∧
    (pad m).length ≤ l + 72

/-- R107: with BUF holding the last `L mod 64` bytes of m, the blocks of `pad(m)` are the whole blocks of m, then the
block PadFinal builds, then PadBlock2 where that one had no room for the length. -/
def Obligations.PadFinalAgreesWithPad : Prop :=
  ∀ (m : List Byte) (buf : Block) (n : Fin 64), m.length < 2 ^ 61 → n.val = m.length % 64 →
    (∀ j : Fin 64, j < n → m[64 * (m.length / 64) + j.val]? = some buf[j]) →
    let len := BitVec.ofNat 61 m.length
    blocksOf (pad m) =
      blocksOf m ++ [padFinalBlock buf n len] ++ (if n.val ≤ 55 then [] else [padBlock2 len])

/-! ### Runs -/

/-- R26, R24: in every run LEN is the length of the message accepted, and in READY the bytes BUF[0..cnt) are those
since the last block boundary, in order. -/
def Obligations.RunKeepsTheMessage : Prop :=
  ∀ (m : Message) (s : State), Run m s →
    s.len.toNat = m.bytes.length ∧
    (s.st = .ready → s.cnt.val = m.bytes.length % 64 ∧
      ∀ j : Fin 64, j < s.cnt → m.bytes[64 * (m.bytes.length / 64) + j.val]? = some s.buf[j])

/-- R189: a run that ends in DONE, under any interleaving of the two agents, reports the digest of its message: of
`pad(m)` where FINISH ended it, of the bytes as written where FINISH_RAW did. -/
def Obligations.RunComputesTheDigest : Prop :=
  ∀ (m : Message) (s : State), Run m s → s.st = .done →
    (m.raw = false → serialize s.h = digest (pad m.bytes)) ∧
    (m.raw = true → 0 < m.bytes.length ∧ m.bytes.length % 64 = 0 ∧ serialize s.h = digest m.bytes)

/-- Every step of the machine from a run gives a run of the message that the step makes of the old one, and the state
after reset begins a run of the empty message (R13, R14): an operation changes the message as `Message.after` says, the
release of reset empties it, and every other step keeps it. -/
def Obligations.StepsStayRuns : Prop :=
  Run ⟨[], false⟩ State.reset ∧
  ∀ (m : Message) (s t : State), Run m s → step s = .next t →
    (∀ i, s.About i → Run (m.after s i) t) ∧
    (s.AboutToReset → Run ⟨[], false⟩ t) ∧
    ((∀ i, ¬s.About i) → ¬s.AboutToReset → Run m t)

/-! ### Reset -/

/-- R47: what the registers read after reset. -/
def Obligations.ResetRegisterValues : Prop :=
  State.reset.st = .ready ∧ State.reset.cnt = 0 ∧ State.reset.len = 0#61 ∧ State.reset.err = .none ∧
  State.reset.irqEn = 0#2 ∧
  State.reset.h =
    #v[0x6a09e667#32, 0xbb67ae85#32, 0x3c6ef372#32, 0xa54ff53a#32,
       0x510e527f#32, 0x9b05688c#32, 0x1f83d9ab#32, 0x5be0cd19#32] ∧
  State.reset.readReg .status = 0x00000008#32 ∧
  State.reset.readReg .lenLo = 0#32 ∧ State.reset.readReg .lenHi = 0#32 ∧
  State.reset.readReg .irqEn = 0#32 ∧
  (∀ i : Fin 8, State.reset.readReg (.digest i) = iv[i]) ∧
  State.reset.irq = false

/-- R260, R261: while reset is asserted the engine takes no step; releasing it leaves what INIT leaves, and also clears
`irq_en`. Model's choice: a step in reset with no input waiting answers the same state (log 5); asserting reset keeps
the engine's fields until the release, also where it is asserted already, and releasing a reset that is not asserted
changes nothing (log 6). That an access in between is refused is U12, and another statement. -/
def Obligations.ResetReleaseAndInitAgree : Prop :=
  ∀ (s : State) (rest : List Input),
    (s.inReset = true → s.inputs = [] → step s = .next s) ∧
    (s.inReset = true ∨ s.HostMoves → s.inputs = .resetAssert :: rest →
      step s = .next { s with inReset := true, inputs := rest, grant := s.grant - 1 }) ∧
    (s.HostMoves → s.inputs = .resetRelease :: rest →
      step s = .next { s with inputs := rest, grant := s.grant - 1 }) ∧
    (s.inReset = true → s.inputs = .resetRelease :: rest → ∃ t u : State,
      step s = .next t ∧ exec .init s = .next u ∧
      t.inReset = false ∧ t.inputs = rest ∧ t.irqEn = 0b00#2 ∧ u.irqEn = s.irqEn ∧
      t.st = .ready ∧ t.h = iv ∧ t.cnt = 0 ∧ t.len = 0#61 ∧ t.err = .none ∧
      t.st = u.st ∧ t.h = u.h ∧ t.cnt = u.cnt ∧ t.len = u.len ∧ t.err = u.err)
end

