-- ==== Sys2Proof/Laws/Algorithm.lean ====
section
/-!
SUPPORT. The small lemmas of the algorithm's functions: what each entry of a vector they build is.
-/

namespace Sys2Proof.Machine

/-! ### Schedule and rounds -/

theorem loadWords_getElem (blk : Block) {t : Nat} (h : t < 16) :
    (loadWords blk)[t] = be32 blk[4 * t] blk[4 * t + 1] blk[4 * t + 2] blk[4 * t + 3] := by
  simp [loadWords, h]

/-- A schedule step writes its own entry. -/
theorem scheduleStep_getElem_self (w : Words64) {i : Nat} (h : 16 ≤ i ∧ i < 64) :
    (scheduleStep w i)[i] = scheduleSum w i h := by
  simp [scheduleStep, h]

/-- A schedule step leaves every other entry. -/
theorem scheduleStep_getElem_ne (w : Words64) {i j : Nat} (hj : j < 64) (h : j ≠ i) : (scheduleStep w i)[j] = w[j] := by
  unfold scheduleStep
  split
  · exact Vector.getElem_set_ne _ _ (Ne.symm h)
  · rfl

@[simp] theorem updateState_getElem (h v : Words8) {j : Nat} (hj : j < 8) : (updateState h v)[j] = h[j] + v[j] := by
  simp [updateState]

/-! ### Padding -/

theorem bitLen_toNat (len : BitVec 61) : (bitLen len).toNat = 8 * len.toNat := by
  have := len.isLt
  simp only [bitLen, BitVec.toNat_shiftLeft, BitVec.toNat_setWidth, Nat.shiftLeft_eq]
  omega

@[simp] theorem blockAt_getElem (p : List Byte) (k : Nat) {j : Nat} (hj : j < 64) :
    (blockAt p k)[j] = p.getD (64 * k + j) 0x00#8 := by
  simp [blockAt]

/-- The bytes of the first final block, by their position. -/
theorem padFinalBlock_getElem (buf : Block) (n : Fin 64) (len : BitVec 61) {j : Nat} (hj : j < 64) :
    (padFinalBlock buf n len)[j] =
      if j < n.val then buf[j]
      else if j = n.val then 0x80#8
      else if h : n.val ≤ 55 ∧ 56 ≤ j then (be64Bytes (bitLen len))[j - 56]
      else 0x00#8 := by
  simp only [padFinalBlock, Vector.getElem_ofFn, Fin.lt_def, Fin.ext_iff]
  rfl

theorem padBlock2_getElem (len : BitVec 61) {j : Nat} (hj : j < 64) :
    (padBlock2 len)[j] = if h : 56 ≤ j then (be64Bytes (bitLen len))[j - 56] else 0x00#8 := by
  simp [padBlock2]

/-- PadFinal reads BUF below `cnt` only. -/
theorem padFinalBlock_congr {buf buf' : Block} {n : Fin 64} {len : BitVec 61}
    (h : ∀ j : Fin 64, j < n → buf[j] = buf'[j]) : padFinalBlock buf n len = padFinalBlock buf' n len := by
  apply Vector.ext
  intro j hj
  rw [padFinalBlock_getElem, padFinalBlock_getElem]
  split
  · exact h ⟨j, hj⟩ (Fin.lt_def.mpr ‹_›)
  · rfl

@[simp] theorem lengthField_length (l : Nat) : (lengthField l).length = 8 := by simp [lengthField]

theorem blocksOf_length (p : List Byte) : (blocksOf p).length = p.length / 64 := by simp [blocksOf]

end Sys2Proof.Machine
end

