-- ==== Sys2Proof/Laws/Decode.lean ====
section
/-!
SUPPORT. The fields of an access word, and registers against offsets.
-/

namespace Sys2Proof

/-- A bit of an access word is a bit of one of its fields. -/
theorem accessWord_getLsbD (we : Bool) (off : BitVec 6) (data : Word) (i : Nat) :
    (accessWord we off data).getLsbD i =
      if i < 32 then data.getLsbD i
      else if i - 32 < 6 then off.getLsbD (i - 32) else (BitVec.ofBool we).getLsbD (i - 32 - 6) := by
  change (BitVec.ofBool we ++ off ++ data : BitVec (1 + 6 + 32)).getLsbD i = _
  rw [BitVec.getLsbD_append, BitVec.getLsbD_append]

@[simp] theorem wordWe_accessWord (we : Bool) (off : BitVec 6) (data : Word) :
    wordWe (accessWord we off data) = we := by
  rw [wordWe, accessWord_getLsbD]
  cases we <;> rfl

@[simp] theorem wordOff_accessWord (we : Bool) (off : BitVec 6) (data : Word) :
    wordOff (accessWord we off data) = off := by
  apply BitVec.eq_of_getLsbD_eq
  intro i hi
  rw [wordOff, BitVec.getLsbD_extractLsb', accessWord_getLsbD]
  simp [hi]

@[simp] theorem wordData_accessWord (we : Bool) (off : BitVec 6) (data : Word) :
    wordData (accessWord we off data) = data := by
  apply BitVec.eq_of_getLsbD_eq
  intro i hi
  rw [wordData, BitVec.getLsbD_extractLsb', accessWord_getLsbD]
  simp [hi]

/-- Every register is found at its own offset. -/
@[simp] theorem Reg.ofOff_off (r : Reg) : Reg.ofOff r.off = some r := by
  cases r with
  | digest i => revert i; decide
  | _ => decide

/-- A register is found exactly at the word offsets, and stands at the offset it was found at. -/
theorem Reg.off_of_ofOff {off : BitVec 6} {r : Reg} (h : Reg.ofOff off = some r) : r.off = off := by
  have key : ∀ off : BitVec 6, ∀ r, Reg.ofOff off = some r → r.off = off := by decide +revert
  exact key off r h

theorem decode_accessWord (we : Bool) (off : BitVec 6) (data : Word) :
    decode (accessWord we off data) = decodeFields we off data := by
  simp [decode]

/-- The access of an operation decodes as its word does. -/
theorem decodeAccess_access (i : Instr) : decodeAccess i.access = decode (encode i) := by
  simp [decodeAccess, Instr.access, encode, decode_accessWord]

end Sys2Proof
end

