-- ==== Sys2Proof/Laws/HostProgram.lean ====
section
/-!
SUPPORT. What the two-agent system can do: nothing in reset, and no access outside the window.
-/

namespace Sys2Proof.Machine

variable {R : Type} (p : Config.Platform (HostState R)) (x : System R)

/-- R260, U12: while reset is asserted neither agent moves. -/
theorem System.step_inReset (h : x.engine.inReset = true) :
    x.step p .host = none ∧ x.step p .engine = none ∧
      ∀ addr size we data, x.step p (.hostAccess addr size we data) = none := by
  simp [System.step, System.act, h]

/-- R241, log 11: every move, whatever it is, ends with the `irq` line's levels going to the host. -/
theorem System.step_some {y : System R} {m : Move} (h : x.step p m = some y) :
    ∃ z, x.act p m = some z ∧ y.engine = z.engine ∧ y.host = p.irqRoute x.engine.irq z.engine.irq z.host := by
  obtain ⟨z, hz, rfl⟩ := Option.map_eq_some_iff.mp h
  exact ⟨z, hz, rfl, rfl⟩

/-- A branch leaves the engine as it is. -/
theorem System.branch_engine {y : System R} {n target : Nat} {cond : Word → Bool} (h : x.branch n cond target = some y) :
    y.engine = x.engine := by
  obtain ⟨_, -, rfl⟩ := Option.map_eq_some_iff.mp h
  rfl

/-- An access that gives a next system was made at an address of the window, outside reset. -/
theorem System.access_some {y : System R} {addr size : Nat} {we : Bool} {data : Word} {dst : Option Nat}
    (h : x.access p addr size we data dst = some y) :
    x.engine.inReset = false ∧ ∃ off, windowOff p.shaBase addr = some off := by
  unfold System.access busInput at h
  cases hw : windowOff p.shaBase addr with
  | none => simp [hw] at h
  | some off =>
    refine ⟨?_, off, rfl⟩
    cases hr : x.engine.inReset with
    | false => rfl
    | true => simp [hw, System.receive, State.receive, hr, State.takeInputInReset] at h

end Sys2Proof.Machine
end

