-- ==== Sys2Proof/Laws/State.lean ====
section
/-!
SUPPORT. The fields of a state after each update: one lemma a field, so that no proof unfolds an update.
-/

namespace Sys2Proof.Machine.State

variable (s : State)

/-! ### respond -/

@[simp] theorem respond_st (a : Response) : (s.respond a).st = s.st := rfl
@[simp] theorem respond_h (a : Response) : (s.respond a).h = s.h := rfl
@[simp] theorem respond_buf (a : Response) : (s.respond a).buf = s.buf := rfl
@[simp] theorem respond_cnt (a : Response) : (s.respond a).cnt = s.cnt := rfl
@[simp] theorem respond_len (a : Response) : (s.respond a).len = s.len := rfl
@[simp] theorem respond_err (a : Response) : (s.respond a).err = s.err := rfl
@[simp] theorem respond_irqEn (a : Response) : (s.respond a).irqEn = s.irqEn := rfl
@[simp] theorem respond_nxt (a : Response) : (s.respond a).nxt = s.nxt := rfl
@[simp] theorem respond_r (a : Response) : (s.respond a).r = s.r := rfl
@[simp] theorem respond_v (a : Response) : (s.respond a).v = s.v := rfl
@[simp] theorem respond_w (a : Response) : (s.respond a).w = s.w := rfl
@[simp] theorem respond_inReset (a : Response) : (s.respond a).inReset = s.inReset := rfl
@[simp] theorem respond_inputs (a : Response) : (s.respond a).inputs = s.inputs := rfl
@[simp] theorem respond_resp (a : Response) : (s.respond a).resp = a := rfl
@[simp] theorem respond_grant (a : Response) : (s.respond a).grant = s.grant := rfl
@[simp] theorem respond_draws (a : Response) : (s.respond a).draws = s.draws := rfl

/-! ### raiseError -/

@[simp] theorem raiseError_st (code : ErrCode) : (s.raiseError code).st = .error := rfl
@[simp] theorem raiseError_h (code : ErrCode) : (s.raiseError code).h = s.h := rfl
@[simp] theorem raiseError_buf (code : ErrCode) : (s.raiseError code).buf = s.buf := rfl
@[simp] theorem raiseError_cnt (code : ErrCode) : (s.raiseError code).cnt = s.cnt := rfl
@[simp] theorem raiseError_len (code : ErrCode) : (s.raiseError code).len = s.len := rfl
@[simp] theorem raiseError_err (code : ErrCode) : (s.raiseError code).err = code := rfl
@[simp] theorem raiseError_irqEn (code : ErrCode) : (s.raiseError code).irqEn = s.irqEn := rfl
@[simp] theorem raiseError_nxt (code : ErrCode) : (s.raiseError code).nxt = s.nxt := rfl
@[simp] theorem raiseError_r (code : ErrCode) : (s.raiseError code).r = s.r := rfl
@[simp] theorem raiseError_v (code : ErrCode) : (s.raiseError code).v = s.v := rfl
@[simp] theorem raiseError_w (code : ErrCode) : (s.raiseError code).w = s.w := rfl
@[simp] theorem raiseError_inReset (code : ErrCode) : (s.raiseError code).inReset = s.inReset := rfl
@[simp] theorem raiseError_inputs (code : ErrCode) : (s.raiseError code).inputs = s.inputs := rfl
@[simp] theorem raiseError_resp (code : ErrCode) : (s.raiseError code).resp = s.resp := rfl
@[simp] theorem raiseError_grant (code : ErrCode) : (s.raiseError code).grant = s.grant := rfl
@[simp] theorem raiseError_draws (code : ErrCode) : (s.raiseError code).draws = s.draws := rfl

/-! ### startRun -/

@[simp] theorem startRun_st : (s.startRun).st = .ready := rfl
@[simp] theorem startRun_h : (s.startRun).h = iv := rfl
@[simp] theorem startRun_buf : (s.startRun).buf = s.buf := rfl
@[simp] theorem startRun_cnt : (s.startRun).cnt = 0 := rfl
@[simp] theorem startRun_len : (s.startRun).len = 0#61 := rfl
@[simp] theorem startRun_err : (s.startRun).err = .none := rfl
@[simp] theorem startRun_irqEn : (s.startRun).irqEn = s.irqEn := rfl
@[simp] theorem startRun_nxt : (s.startRun).nxt = s.nxt := rfl
@[simp] theorem startRun_r : (s.startRun).r = s.r := rfl
@[simp] theorem startRun_v : (s.startRun).v = s.v := rfl
@[simp] theorem startRun_w : (s.startRun).w = s.w := rfl
@[simp] theorem startRun_inReset : (s.startRun).inReset = s.inReset := rfl
@[simp] theorem startRun_inputs : (s.startRun).inputs = s.inputs := rfl
@[simp] theorem startRun_resp : (s.startRun).resp = s.resp := rfl
@[simp] theorem startRun_grant : (s.startRun).grant = s.grant := rfl
@[simp] theorem startRun_draws : (s.startRun).draws = s.draws := rfl

/-! ### startCompress -/

@[simp] theorem startCompress_st (blk : Block) (target : Target) : (s.startCompress blk target).st = .compress := rfl
@[simp] theorem startCompress_h (blk : Block) (target : Target) : (s.startCompress blk target).h = s.h := rfl
@[simp] theorem startCompress_buf (blk : Block) (target : Target) : (s.startCompress blk target).buf = s.buf := rfl
@[simp] theorem startCompress_cnt (blk : Block) (target : Target) : (s.startCompress blk target).cnt = s.cnt := rfl
@[simp] theorem startCompress_len (blk : Block) (target : Target) : (s.startCompress blk target).len = s.len := rfl
@[simp] theorem startCompress_err (blk : Block) (target : Target) : (s.startCompress blk target).err = s.err := rfl
@[simp] theorem startCompress_irqEn (blk : Block) (target : Target) : (s.startCompress blk target).irqEn = s.irqEn := rfl
@[simp] theorem startCompress_nxt (blk : Block) (target : Target) : (s.startCompress blk target).nxt = target := rfl
@[simp] theorem startCompress_r (blk : Block) (target : Target) : (s.startCompress blk target).r = 0 := rfl
@[simp] theorem startCompress_v (blk : Block) (target : Target) : (s.startCompress blk target).v = s.h := rfl
@[simp] theorem startCompress_w (blk : Block) (target : Target) : (s.startCompress blk target).w = expand blk := rfl
@[simp] theorem startCompress_inReset (blk : Block) (target : Target) : (s.startCompress blk target).inReset = s.inReset := rfl
@[simp] theorem startCompress_inputs (blk : Block) (target : Target) : (s.startCompress blk target).inputs = s.inputs := rfl
@[simp] theorem startCompress_resp (blk : Block) (target : Target) : (s.startCompress blk target).resp = s.resp := rfl
@[simp] theorem startCompress_grant (blk : Block) (target : Target) : (s.startCompress blk target).grant = s.grant := rfl
@[simp] theorem startCompress_draws (blk : Block) (target : Target) : (s.startCompress blk target).draws = s.draws := rfl

/-! ### resetEngine -/

@[simp] theorem resetEngine_st : (s.resetEngine).st = .ready := rfl
@[simp] theorem resetEngine_h : (s.resetEngine).h = iv := rfl
@[simp] theorem resetEngine_buf : (s.resetEngine).buf = Config.resetBuf s.draws := rfl
@[simp] theorem resetEngine_cnt : (s.resetEngine).cnt = 0 := rfl
@[simp] theorem resetEngine_len : (s.resetEngine).len = 0#61 := rfl
@[simp] theorem resetEngine_err : (s.resetEngine).err = .none := rfl
@[simp] theorem resetEngine_irqEn : (s.resetEngine).irqEn = 0b00#2 := rfl
@[simp] theorem resetEngine_nxt : (s.resetEngine).nxt = Config.resetNxt s.draws := rfl
@[simp] theorem resetEngine_r : (s.resetEngine).r = Config.resetR s.draws := rfl
@[simp] theorem resetEngine_v : (s.resetEngine).v = Config.resetV s.draws := rfl
@[simp] theorem resetEngine_w : (s.resetEngine).w = Config.resetW s.draws := rfl
@[simp] theorem resetEngine_inReset : (s.resetEngine).inReset = s.inReset := rfl
@[simp] theorem resetEngine_inputs : (s.resetEngine).inputs = s.inputs := rfl
@[simp] theorem resetEngine_resp : (s.resetEngine).resp = s.resp := rfl
@[simp] theorem resetEngine_grant : (s.resetEngine).grant = s.grant := rfl
@[simp] theorem resetEngine_draws : (s.resetEngine).draws = s.draws + 1 := rfl

/-! ### roundStep -/

@[simp] theorem roundStep_st (i : Fin 64) : (s.roundStep i).st = s.st := rfl
@[simp] theorem roundStep_h (i : Fin 64) : (s.roundStep i).h = s.h := rfl
@[simp] theorem roundStep_buf (i : Fin 64) : (s.roundStep i).buf = s.buf := rfl
@[simp] theorem roundStep_cnt (i : Fin 64) : (s.roundStep i).cnt = s.cnt := rfl
@[simp] theorem roundStep_len (i : Fin 64) : (s.roundStep i).len = s.len := rfl
@[simp] theorem roundStep_err (i : Fin 64) : (s.roundStep i).err = s.err := rfl
@[simp] theorem roundStep_irqEn (i : Fin 64) : (s.roundStep i).irqEn = s.irqEn := rfl
@[simp] theorem roundStep_nxt (i : Fin 64) : (s.roundStep i).nxt = s.nxt := rfl
@[simp] theorem roundStep_r (i : Fin 64) : (s.roundStep i).r = i.succ := rfl
@[simp] theorem roundStep_v (i : Fin 64) : (s.roundStep i).v = round s.w s.v i := rfl
@[simp] theorem roundStep_w (i : Fin 64) : (s.roundStep i).w = s.w := rfl
@[simp] theorem roundStep_inReset (i : Fin 64) : (s.roundStep i).inReset = s.inReset := rfl
@[simp] theorem roundStep_inputs (i : Fin 64) : (s.roundStep i).inputs = s.inputs := rfl
@[simp] theorem roundStep_resp (i : Fin 64) : (s.roundStep i).resp = s.resp := rfl
@[simp] theorem roundStep_grant (i : Fin 64) : (s.roundStep i).grant = s.grant := rfl
@[simp] theorem roundStep_draws (i : Fin 64) : (s.roundStep i).draws = s.draws := rfl

/-! ### dropInput -/

@[simp] theorem dropInput_st (rest : List Input) : (s.dropInput rest).st = s.st := rfl
@[simp] theorem dropInput_h (rest : List Input) : (s.dropInput rest).h = s.h := rfl
@[simp] theorem dropInput_buf (rest : List Input) : (s.dropInput rest).buf = s.buf := rfl
@[simp] theorem dropInput_cnt (rest : List Input) : (s.dropInput rest).cnt = s.cnt := rfl
@[simp] theorem dropInput_len (rest : List Input) : (s.dropInput rest).len = s.len := rfl
@[simp] theorem dropInput_err (rest : List Input) : (s.dropInput rest).err = s.err := rfl
@[simp] theorem dropInput_irqEn (rest : List Input) : (s.dropInput rest).irqEn = s.irqEn := rfl
@[simp] theorem dropInput_nxt (rest : List Input) : (s.dropInput rest).nxt = s.nxt := rfl
@[simp] theorem dropInput_r (rest : List Input) : (s.dropInput rest).r = s.r := rfl
@[simp] theorem dropInput_v (rest : List Input) : (s.dropInput rest).v = s.v := rfl
@[simp] theorem dropInput_w (rest : List Input) : (s.dropInput rest).w = s.w := rfl
@[simp] theorem dropInput_inReset (rest : List Input) : (s.dropInput rest).inReset = s.inReset := rfl
@[simp] theorem dropInput_inputs (rest : List Input) : (s.dropInput rest).inputs = rest := rfl
@[simp] theorem dropInput_resp (rest : List Input) : (s.dropInput rest).resp = s.resp := rfl
@[simp] theorem dropInput_grant (rest : List Input) : (s.dropInput rest).grant = s.grant - 1 := rfl
@[simp] theorem dropInput_draws (rest : List Input) : (s.dropInput rest).draws = s.draws := rfl

/-! ### withOutside -/

@[simp] theorem withOutside_st (b : Bool) (q : List Input) (a : Response) (g d : Nat) : (s.withOutside b q a g d).st = s.st := rfl
@[simp] theorem withOutside_h (b : Bool) (q : List Input) (a : Response) (g d : Nat) : (s.withOutside b q a g d).h = s.h := rfl
@[simp] theorem withOutside_buf (b : Bool) (q : List Input) (a : Response) (g d : Nat) : (s.withOutside b q a g d).buf = s.buf := rfl
@[simp] theorem withOutside_cnt (b : Bool) (q : List Input) (a : Response) (g d : Nat) : (s.withOutside b q a g d).cnt = s.cnt := rfl
@[simp] theorem withOutside_len (b : Bool) (q : List Input) (a : Response) (g d : Nat) : (s.withOutside b q a g d).len = s.len := rfl
@[simp] theorem withOutside_err (b : Bool) (q : List Input) (a : Response) (g d : Nat) : (s.withOutside b q a g d).err = s.err := rfl
@[simp] theorem withOutside_irqEn (b : Bool) (q : List Input) (a : Response) (g d : Nat) : (s.withOutside b q a g d).irqEn = s.irqEn := rfl
@[simp] theorem withOutside_nxt (b : Bool) (q : List Input) (a : Response) (g d : Nat) : (s.withOutside b q a g d).nxt = s.nxt := rfl
@[simp] theorem withOutside_r (b : Bool) (q : List Input) (a : Response) (g d : Nat) : (s.withOutside b q a g d).r = s.r := rfl
@[simp] theorem withOutside_v (b : Bool) (q : List Input) (a : Response) (g d : Nat) : (s.withOutside b q a g d).v = s.v := rfl
@[simp] theorem withOutside_w (b : Bool) (q : List Input) (a : Response) (g d : Nat) : (s.withOutside b q a g d).w = s.w := rfl
@[simp] theorem withOutside_inReset (b : Bool) (q : List Input) (a : Response) (g d : Nat) : (s.withOutside b q a g d).inReset = b := rfl
@[simp] theorem withOutside_inputs (b : Bool) (q : List Input) (a : Response) (g d : Nat) : (s.withOutside b q a g d).inputs = q := rfl
@[simp] theorem withOutside_resp (b : Bool) (q : List Input) (a : Response) (g d : Nat) : (s.withOutside b q a g d).resp = a := rfl
@[simp] theorem withOutside_grant (b : Bool) (q : List Input) (a : Response) (g d : Nat) : (s.withOutside b q a g d).grant = g := rfl
@[simp] theorem withOutside_draws (b : Bool) (q : List Input) (a : Response) (g d : Nat) : (s.withOutside b q a g d).draws = d := rfl

/-! ### pushAccess -/

@[simp] theorem pushAccess_st (a : Access) : (s.pushAccess a).st = s.st := rfl
@[simp] theorem pushAccess_h (a : Access) : (s.pushAccess a).h = s.h := rfl
@[simp] theorem pushAccess_buf (a : Access) : (s.pushAccess a).buf = s.buf := rfl
@[simp] theorem pushAccess_cnt (a : Access) : (s.pushAccess a).cnt = s.cnt := rfl
@[simp] theorem pushAccess_len (a : Access) : (s.pushAccess a).len = s.len := rfl
@[simp] theorem pushAccess_err (a : Access) : (s.pushAccess a).err = s.err := rfl
@[simp] theorem pushAccess_irqEn (a : Access) : (s.pushAccess a).irqEn = s.irqEn := rfl
@[simp] theorem pushAccess_nxt (a : Access) : (s.pushAccess a).nxt = s.nxt := rfl
@[simp] theorem pushAccess_r (a : Access) : (s.pushAccess a).r = s.r := rfl
@[simp] theorem pushAccess_v (a : Access) : (s.pushAccess a).v = s.v := rfl
@[simp] theorem pushAccess_w (a : Access) : (s.pushAccess a).w = s.w := rfl
@[simp] theorem pushAccess_inReset (a : Access) : (s.pushAccess a).inReset = false := rfl
@[simp] theorem pushAccess_inputs (a : Access) : (s.pushAccess a).inputs = .access a :: s.inputs := rfl
@[simp] theorem pushAccess_resp (a : Access) : (s.pushAccess a).resp = s.resp := rfl
@[simp] theorem pushAccess_grant (a : Access) : (s.pushAccess a).grant = s.grant + 1 := rfl
@[simp] theorem pushAccess_draws (a : Access) : (s.pushAccess a).draws = s.draws := rfl

/-! ### padFinal -/

@[simp] theorem padFinal_st : (s.padFinal).st = .compress := rfl
@[simp] theorem padFinal_h : (s.padFinal).h = s.h := rfl
@[simp] theorem padFinal_buf : (s.padFinal).buf = padFinalBlock s.buf s.cnt s.len := rfl
@[simp] theorem padFinal_cnt : (s.padFinal).cnt = 0 := rfl
@[simp] theorem padFinal_len : (s.padFinal).len = s.len := rfl
@[simp] theorem padFinal_err : (s.padFinal).err = s.err := rfl
@[simp] theorem padFinal_irqEn : (s.padFinal).irqEn = s.irqEn := rfl
@[simp] theorem padFinal_nxt : (s.padFinal).nxt = if s.cnt.val ≤ 55 then .toDone else .toPad2 := rfl
@[simp] theorem padFinal_r : (s.padFinal).r = 0 := rfl
@[simp] theorem padFinal_v : (s.padFinal).v = s.h := rfl
@[simp] theorem padFinal_w : (s.padFinal).w = expand (padFinalBlock s.buf s.cnt s.len) := rfl
@[simp] theorem padFinal_inReset : (s.padFinal).inReset = s.inReset := rfl
@[simp] theorem padFinal_inputs : (s.padFinal).inputs = s.inputs := rfl
@[simp] theorem padFinal_resp : (s.padFinal).resp = s.resp := rfl
@[simp] theorem padFinal_grant : (s.padFinal).grant = s.grant := rfl
@[simp] theorem padFinal_draws : (s.padFinal).draws = s.draws := rfl

end Sys2Proof.Machine.State
end

