-- ==== Sys2Proof/Laws/Ops.lean ====
section
/-!
SUPPORT. What each shared operation can do, said once. Later proofs cite these lemmas and do not unfold the
operations.
-/

namespace Sys2Proof.Machine

variable {s t : State} {i : Instr}

/-! ### The gate every DATA and CMD write passes -/

theorem State.gate_of_ready {c : ErrCode} {k : State} (h : s.st = .ready) : s.gate c k = k := by simp [State.gate, h]

theorem State.gate_of_compress {c : ErrCode} {k : State} (h : s.st = .compress) : s.gate c k = s.raiseError .busy := by
  simp [State.gate, h]

theorem State.gate_of_done {c : ErrCode} {k : State} (h : s.st = .done) : s.gate c k = s.raiseError c := by
  simp [State.gate, h]

theorem State.gate_of_error {c : ErrCode} {k : State} (h : s.st = .error) : s.gate c k = s := by simp [State.gate, h]

/-- The gate ignores the write, raises an error, or lets it through. -/
theorem State.gate_cases (s : State) (c : ErrCode) (k : State) :
    (s.st = .error ∧ s.gate c k = s) ∨ (s.st = .compress ∧ s.gate c k = s.raiseError .busy) ∨
    (s.st = .done ∧ s.gate c k = s.raiseError c) ∨ (s.st = .ready ∧ s.gate c k = k) := by
  cases h : s.st
  · exact .inr (.inr (.inr ⟨rfl, gate_of_ready h⟩))
  · exact .inr (.inl ⟨rfl, gate_of_compress h⟩)
  · exact .inr (.inr (.inl ⟨rfl, gate_of_done h⟩))
  · exact .inl ⟨rfl, gate_of_error h⟩

/-! ### Taking in bytes -/

/-- A byte that does not fill the block only lengthens the message. -/
theorem State.appendByte_of_ne (b : Byte) (h : s.cnt ≠ 63) :
    s.appendByte b = { s with buf := s.buf.set s.cnt b, len := s.len + 1#61, cnt := s.cnt + 1 } := by
  simp [State.appendByte, h]

/-- The byte that fills the block starts its compression in the same step. -/
theorem State.appendByte_of_eq (b : Byte) (h : s.cnt = 63) :
    s.appendByte b =
      ({ s with buf := s.buf.set s.cnt b, len := s.len + 1#61, cnt := 0 } : State).startCompress
        (s.buf.set s.cnt b) .toReady := by
  simp [State.appendByte, h]

@[simp] theorem State.appendByte_len (b : Byte) : (s.appendByte b).len = s.len + 1#61 := by
  unfold State.appendByte; split <;> rfl

@[simp] theorem State.appendByte_h (b : Byte) : (s.appendByte b).h = s.h := by
  unfold State.appendByte; split <;> rfl

@[simp] theorem State.appendByte_buf (b : Byte) : (s.appendByte b).buf = s.buf.set s.cnt b := by
  unfold State.appendByte; split <;> rfl

@[simp] theorem State.appendByte_err (b : Byte) : (s.appendByte b).err = s.err := by
  unfold State.appendByte; split <;> rfl

@[simp] theorem State.appendByte_irqEn (b : Byte) : (s.appendByte b).irqEn = s.irqEn := by
  unfold State.appendByte; split <;> rfl

@[simp] theorem State.appendByte_inReset (b : Byte) : (s.appendByte b).inReset = s.inReset := by
  unfold State.appendByte; split <;> rfl

@[simp] theorem State.appendByte_inputs (b : Byte) : (s.appendByte b).inputs = s.inputs := by
  unfold State.appendByte; split <;> rfl

@[simp] theorem State.appendByte_resp (b : Byte) : (s.appendByte b).resp = s.resp := by
  unfold State.appendByte; split <;> rfl

@[simp] theorem State.appendByte_grant (b : Byte) : (s.appendByte b).grant = s.grant := by
  unfold State.appendByte; split <;> rfl

@[simp] theorem State.appendByte_draws (b : Byte) : (s.appendByte b).draws = s.draws := by
  unfold State.appendByte; split <;> rfl

/-- A DATA_BYTE in READY: past the bound, or appended. -/
theorem State.takeByte_cases (s : State) (b : Byte) :
    (s.len.toNat = 2 ^ 61 - 1 ∧ s.takeByte b = s.raiseError .lengthOverflow) ∨
    (s.len.toNat ≠ 2 ^ 61 - 1 ∧ s.takeByte b = s.appendByte b) := by
  unfold State.takeByte
  split
  · exact .inl ⟨‹_›, rfl⟩
  · exact .inr ⟨‹_›, rfl⟩

/-- A DATA_WORD in READY: misaligned, past the bound, or appended. -/
theorem State.takeWord_cases (s : State) (b0 b1 b2 b3 : Byte) :
    (s.len.toNat % 4 ≠ 0 ∧ s.takeWord b0 b1 b2 b3 = s.raiseError .wordMisaligned) ∨
    (s.len.toNat % 4 = 0 ∧ s.len.toNat > 2 ^ 61 - 5 ∧ s.takeWord b0 b1 b2 b3 = s.raiseError .lengthOverflow) ∨
    (s.len.toNat % 4 = 0 ∧ s.len.toNat ≤ 2 ^ 61 - 5 ∧
      s.takeWord b0 b1 b2 b3 = (((s.appendByte b0).appendByte b1).appendByte b2).appendByte b3) := by
  unfold State.takeWord
  split
  · exact .inl ⟨‹_›, rfl⟩
  · split
    · exact .inr (.inl ⟨by omega, ‹_›, rfl⟩)
    · exact .inr (.inr ⟨by omega, by omega, rfl⟩)

/-- FINISH_RAW in READY: a bad length, or DONE. -/
theorem State.endRaw_cases (s : State) :
    ((s.len.toNat = 0 ∨ s.cnt ≠ 0) ∧ s.endRaw = s.raiseError .malformedInput) ∨
    (s.len.toNat ≠ 0 ∧ s.cnt = 0 ∧ s.endRaw = { s with st := .done }) := by
  unfold State.endRaw
  split
  · exact .inl ⟨‹_›, rfl⟩
  · exact .inr ⟨by tauto, by tauto, rfl⟩

/-! ### The engine's steps -/

theorem State.microStep_of_lt (hc : s.st = .compress) (hr : s.r.val < 64) :
    s.microStep = s.roundStep ⟨s.r.val, hr⟩ := by
  simp [State.microStep, hc, hr]

theorem State.microStep_of_eq (hc : s.st = .compress) (hr : s.r.val = 64) : s.microStep = s.updateStep := by
  simp [State.microStep, hc, hr]

theorem State.microStep_of_idle (hc : s.st ≠ .compress) : s.microStep = s := by
  unfold State.microStep
  split
  · exact absurd ‹_› hc
  · rfl
  · rfl
  · rfl

theorem State.updateStep_of_toReady (h : s.nxt = .toReady) :
    s.updateStep = { s with h := updateState s.h s.v, st := .ready } := by
  simp [State.updateStep, h]

theorem State.updateStep_of_toDone (h : s.nxt = .toDone) :
    s.updateStep = { s with h := updateState s.h s.v, st := .done } := by
  simp [State.updateStep, h]

theorem State.updateStep_of_toPad2 (h : s.nxt = .toPad2) :
    s.updateStep =
      ({ s with h := updateState s.h s.v, buf := padBlock2 s.len } : State).startCompress (padBlock2 s.len) .toDone := by
  simp [State.updateStep, h]

/-- Nothing outside the engine changes at a micro-step, nor do LEN, cnt, err and irq_en. -/
theorem State.microStep_keeps (s : State) :
    s.microStep.cnt = s.cnt ∧ s.microStep.len = s.len ∧ s.microStep.err = s.err ∧ s.microStep.irqEn = s.irqEn ∧
    s.microStep.inReset = s.inReset ∧ s.microStep.inputs = s.inputs ∧ s.microStep.resp = s.resp ∧
    s.microStep.grant = s.grant ∧ s.microStep.draws = s.draws := by
  by_cases hc : s.st = .compress
  · by_cases hr : s.r.val < 64
    · simp [microStep_of_lt hc hr]
    · rw [microStep_of_eq hc (by omega)]
      cases hn : s.nxt
      · simp [updateStep_of_toReady hn]
      · simp [updateStep_of_toPad2 hn]
      · simp [updateStep_of_toDone hn]
  · simp [microStep_of_idle hc]

/-! ### Accesses -/

/-- What an operation leaves of everything outside the engine: only the answer is new. -/
structure State.SameOutside (s t : State) : Prop where
  inReset : t.inReset = s.inReset
  inputs : t.inputs = s.inputs
  grant : t.grant = s.grant
  draws : t.draws = s.draws

theorem State.gate_sameOutside {c : ErrCode} {k : State} (hk : s.SameOutside k) : s.SameOutside (s.gate c k) := by
  obtain ⟨-, h⟩ | ⟨-, h⟩ | ⟨-, h⟩ | ⟨-, h⟩ := s.gate_cases c k <;> rw [h]
  · exact ⟨rfl, rfl, rfl, rfl⟩
  · exact ⟨rfl, rfl, rfl, rfl⟩
  · exact ⟨rfl, rfl, rfl, rfl⟩
  · exact hk

theorem State.takeWord_sameOutside (b0 b1 b2 b3 : Byte) : s.SameOutside (s.takeWord b0 b1 b2 b3) := by
  obtain ⟨-, h⟩ | ⟨-, -, h⟩ | ⟨-, -, h⟩ := s.takeWord_cases b0 b1 b2 b3 <;> rw [h] <;> constructor <;> simp

theorem State.takeByte_sameOutside (b : Byte) : s.SameOutside (s.takeByte b) := by
  obtain ⟨-, h⟩ | ⟨-, h⟩ := s.takeByte_cases b <;> rw [h] <;> constructor <;> simp

theorem State.endRaw_sameOutside : s.SameOutside s.endRaw := by
  obtain ⟨-, h⟩ | ⟨-, -, h⟩ := s.endRaw_cases <;> rw [h] <;> constructor <;> rfl

theorem State.SameOutside.respond {a : Response} (h : s.SameOutside t) : s.SameOutside (t.respond a) :=
  ⟨h.inReset, h.inputs, h.grant, h.draws⟩

/-- Every operation answers a next state, and changes nothing outside the engine but the answer. -/
theorem exec_next (i : Instr) (s : State) : ∃ t, exec i s = .next t ∧ s.SameOutside t := by
  have keep : s.SameOutside s := ⟨rfl, rfl, rfl, rfl⟩
  cases i
  case init => exact ⟨_, rfl, ⟨rfl, rfl, rfl, rfl⟩⟩
  case wrIrqEn => exact ⟨_, rfl, ⟨rfl, rfl, rfl, rfl⟩⟩
  case finish => exact ⟨_, rfl, (State.gate_sameOutside (s := s) (k := s.padFinal) ⟨rfl, rfl, rfl, rfl⟩).respond⟩
  case finishRaw => exact ⟨_, rfl, (State.gate_sameOutside State.endRaw_sameOutside).respond⟩
  case cmdIllegal => exact ⟨_, rfl, (State.gate_sameOutside (s := s) (k := s.raiseError .badCmd) ⟨rfl, rfl, rfl, rfl⟩).respond⟩
  case wrDataWord => exact ⟨_, rfl, (State.gate_sameOutside (State.takeWord_sameOutside ..)).respond⟩
  case wrDataByte => exact ⟨_, rfl, (State.gate_sameOutside (State.takeByte_sameOutside ..)).respond⟩
  all_goals exact ⟨_, rfl, keep.respond⟩

theorem exec_sameOutside (h : exec i s = .next t) : s.SameOutside t := by
  obtain ⟨t', h', hs⟩ := exec_next i s
  rw [h'] at h
  cases h
  exact hs

/-- What an access does: the operation it decodes to, or a bus error. -/
theorem State.busAccess_of_ok {a : Access} (h : decodeAccess a = .ok i) : s.busAccess a = exec i s := by
  simp [State.busAccess, h]

theorem State.busAccess_of_error {a : Access} {e : BusReject} (h : decodeAccess a = .error e) :
    s.busAccess a = .next (s.respond .busErr) := by
  simp [State.busAccess, h]

/-! ### The step -/

/-- Where the host moves, the step takes the oldest input. -/
theorem step_of_hostMoves {inp : Input} {rest : List Input} (hm : s.HostMoves) (hq : s.inputs = inp :: rest) :
    step s = (s.dropInput rest).takeInput inp := by
  obtain ⟨hr, hg⟩ := hm
  unfold step State.turn
  rw [hr, hq]
  cases hst : s.st
  · rfl
  · cases hgr : s.grant
    · exact absurd hgr (hg hst)
    · rfl
  · rfl
  · rfl

/-- Where the engine moves, the step is its turn. -/
theorem step_of_engineMoves (hm : s.EngineMoves) : step s = .next s.engineTurn := by
  obtain ⟨hr, hst, hq⟩ := hm
  unfold step State.turn
  rw [hr]
  cases hi : s.inputs with
  | nil => simp [hst]
  | cons inp rest =>
    have hg : s.grant = 0 := by rcases hq with h | h <;> simp_all
    simp [hst, hg]

/-- All a step can do: nothing, a micro-step, an input taken, or an input taken while reset is asserted. -/
theorem step_cases (s : State) :
    (s.inReset = true ∧ s.inputs = [] ∧ step s = .next s) ∨
    (∃ inp rest, s.inReset = true ∧ s.inputs = inp :: rest ∧ step s = (s.dropInput rest).takeInputInReset inp) ∨
    (s.inReset = false ∧ s.st ≠ .compress ∧ s.inputs = [] ∧ step s = .next s) ∨
    (s.EngineMoves ∧ step s = .next s.engineTurn) ∨
    (∃ inp rest, s.HostMoves ∧ s.inputs = inp :: rest ∧ step s = (s.dropInput rest).takeInput inp) := by
  cases hr : s.inReset with
  | true =>
    cases hq : s.inputs with
    | nil => exact .inl ⟨rfl, rfl, by simp [step, State.turn, hr, hq]⟩
    | cons inp rest => exact .inr (.inl ⟨inp, rest, rfl, rfl, by simp [step, State.turn, hr, hq]⟩)
  | false =>
    refine .inr (.inr ?_)
    cases hq : s.inputs with
    | nil =>
      by_cases hst : s.st = .compress
      · exact .inr (.inl ⟨⟨hr, hst, .inl hq⟩, step_of_engineMoves ⟨hr, hst, .inl hq⟩⟩)
      · refine .inl ⟨rfl, hst, rfl, ?_⟩
        unfold step State.turn
        rw [hr, hq]
        cases h : s.st <;> simp_all
    | cons inp rest =>
      by_cases hm : s.st = .compress ∧ s.grant = 0
      · exact .inr (.inl ⟨⟨hr, hm.1, .inr hm.2⟩, step_of_engineMoves ⟨hr, hm.1, .inr hm.2⟩⟩)
      · have hh : s.HostMoves := ⟨hr, fun hc hg => hm ⟨hc, hg⟩⟩
        exact .inr (.inr ⟨inp, rest, hh, rfl, step_of_hostMoves hh hq⟩)

/-- The step after `withFetchWord` is the access that the table word stands for, in the state itself. -/
theorem step_withFetchWord {nbits w : Nat} (hr : s.inReset = false) :
    step (s.withFetchWord nbits w) = s.busAccess (accessOfTableWord w) := by
  have hm : (s.withFetchWord nbits w).HostMoves := ⟨rfl, fun _ h => by simp [State.withFetchWord] at h⟩
  rw [step_of_hostMoves (rest := s.inputs) hm rfl]
  have : (s.withFetchWord nbits w).dropInput s.inputs = s := by
    cases s
    simp only at hr
    subst hr
    rfl
  rw [this]
  rfl

end Sys2Proof.Machine
end

