-- ==== Sys2Proof/Laws/PerInstr.lean ====
section
/-!
SUPPORT. Facts about every operation as syntax, one lemma per constructor.
-/

namespace Sys2Proof.Laws.WordShape

/-- The fields of an operation's word are its direction, its register's offset and its data (spec/30_encoding.md
R80). -/
def Statement (i : Instr) : Prop :=
  wordWe (encode i) = i.isWrite ∧ wordOff (encode i) = i.reg.off ∧ wordData (encode i) = i.data

/-- It holds of any word put together by `accessWord`. -/
theorem of_encode (i : Instr) : Statement i := by
  simp [Statement, encode]

theorem rdId : Statement .rdId := of_encode _
theorem rdCmd : Statement .rdCmd := of_encode _
theorem rdStatus : Statement .rdStatus := of_encode _
theorem rdDataWord : Statement .rdDataWord := of_encode _
theorem rdDataByte : Statement .rdDataByte := of_encode _
theorem rdLenLo : Statement .rdLenLo := of_encode _
theorem rdLenHi : Statement .rdLenHi := of_encode _
theorem rdIrqEn : Statement .rdIrqEn := of_encode _
theorem rdDigest (j : Fin 8) : Statement (.rdDigest j) := of_encode _
theorem wrId (data : Word) : Statement (.wrId data) := of_encode _
theorem init : Statement .init := of_encode _
theorem finish : Statement .finish := of_encode _
theorem finishRaw : Statement .finishRaw := of_encode _
theorem cmdIllegal (rsvd : BitVec 28) (op : BitVec 4) : Statement (.cmdIllegal rsvd op) := of_encode _
theorem wrStatus (data : Word) : Statement (.wrStatus data) := of_encode _
theorem wrDataWord (b0 b1 b2 b3 : Byte) : Statement (.wrDataWord b0 b1 b2 b3) := of_encode _
theorem wrDataByte (b : Byte) (ignored : BitVec 24) : Statement (.wrDataByte b ignored) := of_encode _
theorem wrLenLo (data : Word) : Statement (.wrLenLo data) := of_encode _
theorem wrLenHi (data : Word) : Statement (.wrLenHi data) := of_encode _
theorem wrIrqEn (doneIe errIe : Bool) (ignored : BitVec 30) : Statement (.wrIrqEn doneIe errIe ignored) := of_encode _
theorem wrDigest (j : Fin 8) (data : Word) : Statement (.wrDigest j data) := of_encode _

end Sys2Proof.Laws.WordShape
end

