-- ==== Sys2Proof/Tests/Slice0.lean ====
section
/-!
SUPPORT. Tests: well-formedness, decoding of written-out words, the worked examples and vectors of
spec/95_test_vectors.md and of the rules, and a witness for the hypotheses of every statement.
-/

namespace Sys2Proof.Tests

open Sys2Proof.Machine

/-! ### Well-formedness (spec/30_encoding.md R82, R88) -/

theorem test_wf_refuses_init_as_illegal : (Instr.cmdIllegal 0#28 1#4).wf = false := by decide
theorem test_wf_refuses_finish_as_illegal : (Instr.cmdIllegal 0#28 2#4).wf = false := by decide
theorem test_wf_refuses_finish_raw_as_illegal : (Instr.cmdIllegal 0#28 3#4).wf = false := by decide
theorem test_wf_accepts_reserved_bit : (Instr.cmdIllegal 1#28 1#4).wf = true := by decide
theorem test_wf_accepts_illegal_op : (Instr.cmdIllegal 0#28 0#4).wf = true ∧ (Instr.cmdIllegal 0#28 4#4).wf = true := by decide

/-! ### Decoding: words written out from the opcode map of R86 and the fields of R83 to R85 -/

theorem test_decode_reads :
    decode 0x0000000000#39 = .ok .rdId ∧ decode 0x0400000000#39 = .ok .rdCmd ∧
    decode 0x0800000000#39 = .ok .rdStatus ∧ decode 0x0C00000000#39 = .ok .rdDataWord ∧
    decode 0x1000000000#39 = .ok .rdDataByte ∧ decode 0x1400000000#39 = .ok .rdLenLo ∧
    decode 0x1800000000#39 = .ok .rdLenHi ∧ decode 0x1C00000000#39 = .ok .rdIrqEn := by decide

theorem test_decode_digest :
    decode 0x2000000000#39 = .ok (.rdDigest 0) ∧ decode 0x2C00000000#39 = .ok (.rdDigest 3) ∧
    decode 0x3C00000000#39 = .ok (.rdDigest 7) ∧ decode 0x6400000005#39 = .ok (.wrDigest 1 5#32) := by decide

theorem test_decode_commands :
    decode 0x4400000001#39 = .ok .init ∧ decode 0x4400000002#39 = .ok .finish ∧
    decode 0x4400000003#39 = .ok .finishRaw ∧ decode 0x4400000000#39 = .ok (.cmdIllegal 0#28 0#4) ∧
    decode 0x4480000001#39 = .ok (.cmdIllegal 0x8000000#28 1#4) := by decide

theorem test_decode_read_only_writes :
    decode 0x4012345678#39 = .ok (.wrId 0x12345678#32) ∧ decode 0x48FFFFFFFF#39 = .ok (.wrStatus 0xFFFFFFFF#32) ∧
    decode 0x5400000001#39 = .ok (.wrLenLo 1#32) ∧ decode 0x5800000002#39 = .ok (.wrLenHi 2#32) := by decide

theorem test_decode_data_writes :
    decode 0x4C61626364#39 = .ok (.wrDataWord 0x61#8 0x62#8 0x63#8 0x64#8) ∧
    decode 0x50FFFFFF41#39 = .ok (.wrDataByte 0x41#8 0xFFFFFF#24) ∧
    decode 0x5C00000002#39 = .ok (.wrIrqEn false true 0#30) := by decide

/-- R62: CM24 and CM25 of L2-C, and a misaligned access word. -/
theorem test_decode_bus_errors :
    decodeAccess ⟨1, 0x08#6, false, 0#32⟩ = .error .badSize ∧
    decodeAccess ⟨4, 0x0E#6, true, 0#32⟩ = .error .misaligned ∧
    decode 0x0100000000#39 = .error .misaligned := by decide

theorem test_table_words :
    decodeTableWord 40 0x4400000002 = some .finish ∧ decodeTableWord 40 0x2000000000 = some (.rdDigest 0) ∧
    decodeTableWord 40 0x8000000000 = none := by decide

/-- The encoder against words written out (R80; the access words at the end of L2-C). -/
theorem test_encode :
    encode .init = 0x4400000001#39 ∧ encode (.wrDataWord 0x61#8 0x62#8 0x63#8 0x64#8) = 0x4C61626364#39 ∧
    encode (.wrDataByte 0x61#8 0#24) = 0x5000000061#39 ∧ encode .rdStatus = 0x0800000000#39 := by decide

/-! ### The algorithm's functions: L2-S and L2-R -/

theorem test_rotr : rotr 0x12345678#32 7 = 0xF02468AC#32 ∧ rotr 0x12345678#32 25 = 0x1A2B3C09#32 := by decide
theorem test_smallSigma0 : smallSigma0 0x12345678#32 = 0xE7FCE6EE#32 ∧ smallSigma0 0xFFFFFFFF#32 = 0x1FFFFFFF#32 := by decide
theorem test_smallSigma1 : smallSigma1 0x12345678#32 = 0xA1F78649#32 ∧ smallSigma1 0x80000000#32 = 0x00205000#32 := by decide
theorem test_bigSigma0 : bigSigma0 0x6A09E667#32 = 0xCE20B47E#32 ∧ bigSigma0 1#32 = 0x40080400#32 := by decide
theorem test_bigSigma1 : bigSigma1 0x510E527F#32 = 0x3587272B#32 ∧ bigSigma1 1#32 = 0x04200080#32 := by decide
theorem test_ch : ch 0xF0F0F0F0#32 0xAAAAAAAA#32 0x55555555#32 = 0xA5A5A5A5#32 := by decide
theorem test_maj : maj 0xF0F0F0F0#32 0xCCCCCCCC#32 0xAAAAAAAA#32 = 0xE8E8E8E8#32 := by decide

/-- The first row of the "abc" table of L2-R. -/
theorem test_round_zero_of_abc :
    roundWith iv 0x428A2F98#32 0x61626380#32 =
      #v[0x5d6aebcd#32, 0x6a09e667#32, 0xbb67ae85#32, 0x3c6ef372#32,
         0xfa2a4622#32, 0x510e527f#32, 0x9b05688c#32, 0x1f83d9ab#32] := by decide

/-- The block `pad("abc")` of L2-P, from its bytes. -/
def abcBlock : Block :=
  Vector.ofFn fun j : Fin 64 =>
    if j = 0 then 0x61#8 else if j = 1 then 0x62#8 else if j = 2 then 0x63#8 else if j = 3 then 0x80#8
    else if j = 63 then 0x18#8 else 0x00#8

theorem test_pad_abc : blocksOf (pad [0x61#8, 0x62#8, 0x63#8]) = [abcBlock] := by decide +kernel

/-- L1-4 with the count of 90_conflicts.md C1: 50 zero bytes. -/
theorem test_pad_abcde :
    pad [0x61#8, 0x62#8, 0x63#8, 0x64#8, 0x65#8] =
      [0x61#8, 0x62#8, 0x63#8, 0x64#8, 0x65#8, 0x80#8] ++ List.replicate 50 0x00#8 ++
        [0x00#8, 0x00#8, 0x00#8, 0x00#8, 0x00#8, 0x00#8, 0x00#8, 0x28#8] := by decide

/-- R102's table and the last row of L2-P. -/
theorem test_padded_blocks :
    [0, 55, 56, 63, 64, 119, 120, 2 ^ 61 - 1].map paddedBlocks = [1, 1, 2, 2, 2, 2, 3, 2 ^ 55 + 1] := by decide

/-- W[16], W[17] and W[63] of the "abc" block (R135). -/
theorem test_expand_abc :
    (expand abcBlock)[16] = 0x61626380#32 ∧ (expand abcBlock)[17] = 0x000F0000#32 ∧
    (expand abcBlock)[63] = 0x12B1EDEB#32 := by decide +kernel

/-- R159's example: the digest of "abc". -/
theorem test_compress_abc :
    compress iv abcBlock =
      #v[0xba7816bf#32, 0x8f01cfea#32, 0x414140de#32, 0x5dae2223#32,
         0xb00361a3#32, 0x96177a9c#32, 0xb410ff61#32, 0xf20015ad#32] := by decide +kernel

/-! ### Small states -/

/-- An engine after INIT, with every unspecified field at a value of the test's own. -/
def base : State where
  st := .ready
  h := iv
  buf := Vector.replicate 64 0xAA#8
  cnt := 0
  len := 0#61
  err := .none
  irqEn := 0b00#2
  nxt := .toReady
  r := 7
  v := Vector.replicate 8 0xAAAAAAAA#32
  w := Vector.replicate 64 0xAAAAAAAA#32
  inReset := false
  inputs := []
  resp := .none
  grant := 0
  draws := 0

/-- READY with `n` bytes accepted. -/
def readyWith (n : Nat) : State := { base with len := BitVec.ofNat 61 n, cnt := Fin.ofNat 64 n }

/-- COMPRESS on the way to `target`. -/
def compressing (target : Target) : State := { base with st := .compress, nxt := target, r := 3, len := 64#61 }

/-- DONE after a message of three bytes. -/
def done3 : State := { base with st := .done, len := 3#61 }

/-- ERROR with code 4 and one byte accepted. -/
def error4 : State := { base with st := .error, err := .wordMisaligned, len := 1#61, cnt := 1 }

/-- The state an operation leaves. -/
def answer (i : Instr) (s : State) : Option State :=
  match exec i s with
  | .next t => some t
  | .fault _ => none
  | .refused _ => none

/-- The STATUS word and the length registers after an operation. -/
def regsAfter (i : Instr) (s : State) : Option (Word × Word × Word) :=
  (answer i s).map fun t => (t.status, t.lenHi, t.lenLo)

/-- The answer to a read. -/
def readBack (i : Instr) (s : State) : Option Response := (answer i s).map State.resp

/-! ### Intake: the table L2-P -/

theorem test_in1_word :
    regsAfter (.wrDataWord 0x61#8 0x62#8 0x63#8 0x64#8) base = some (0x00040008#32, 0#32, 0x20#32) ∧
    (answer (.wrDataWord 0x61#8 0x62#8 0x63#8 0x64#8) base).map (fun t => (t.buf[0], t.buf[3])) =
      some (0x61#8, 0x64#8) := by decide +kernel

theorem test_in2_byte :
    regsAfter (.wrDataByte 0x30#8 0#24) base = some (0x00010008#32, 0#32, 0x08#32) := by decide +kernel

theorem test_in5_byte_completes_block :
    regsAfter (.wrDataByte 0x61#8 0#24) (readyWith 63) = some (0x00000001#32, 0#32, 0x200#32) ∧
    (answer (.wrDataByte 0x61#8 0#24) (readyWith 63)).map (fun t => (t.nxt, t.r)) = some (.toReady, 0) := by
  decide +kernel

theorem test_in4_word_completes_block :
    regsAfter (.wrDataWord 0x61#8 0x61#8 0x61#8 0x61#8) (readyWith 60) = some (0x00000001#32, 0#32, 0x200#32) := by
  decide +kernel

theorem test_in6_to_in11_bounds :
    regsAfter (.wrDataWord 0x42#8 0x43#8 0x44#8 0x45#8) (readyWith 1) = some (0x00010404#32, 0#32, 0x08#32) ∧
    regsAfter (.wrDataWord 0x61#8 0x62#8 0x63#8 0x64#8) (readyWith (2 ^ 61 - 8)) =
      some (0x003C0008#32, 0xFFFFFFFF#32, 0xFFFFFFE0#32) ∧
    regsAfter (.wrDataWord 0x61#8 0x62#8 0x63#8 0x64#8) (readyWith (2 ^ 61 - 4)) =
      some (0x003C0504#32, 0xFFFFFFFF#32, 0xFFFFFFE0#32) ∧
    regsAfter (.wrDataByte 0x61#8 0#24) (readyWith (2 ^ 61 - 2)) =
      some (0x003F0008#32, 0xFFFFFFFF#32, 0xFFFFFFF8#32) ∧
    regsAfter (.wrDataByte 0x61#8 0#24) (readyWith (2 ^ 61 - 1)) =
      some (0x003F0504#32, 0xFFFFFFFF#32, 0xFFFFFFF8#32) := by decide +kernel

theorem test_in12_finish_at_the_bound :
    regsAfter .finish (readyWith (2 ^ 61 - 1)) = some (0x00000011#32, 0xFFFFFFFF#32, 0xFFFFFFF8#32) ∧
    (answer .finish (readyWith (2 ^ 61 - 1))).map (fun t => (t.nxt, t.buf[62], t.buf[63])) =
      some (.toPad2, 0xAA#8, 0x80#8) := by decide +kernel

/-! ### Commands and register accesses: the table L2-C -/

theorem test_finish_builds_the_abc_block :
    ((answer (.wrDataByte 0x61#8 0#24) base).bind fun s1 =>
      (answer (.wrDataByte 0x62#8 0#24) s1).bind fun s2 =>
        (answer (.wrDataByte 0x63#8 0#24) s2).bind fun s3 => (answer .finish s3).map State.buf) = some abcBlock := by
  decide +kernel

theorem test_cm1_rdId : readBack .rdId base = some (.data 0x53484132#32) := by decide
theorem test_cm2_rdStatus : readBack .rdStatus State.reset = some (.data 0x00000008#32) := by decide
theorem test_rdLenHi : readBack .rdLenHi (readyWith (2 ^ 61 - 1)) = some (.data 0xFFFFFFFF#32) := by decide
theorem test_rdLenLo : readBack .rdLenLo (readyWith 3) = some (.data 0x18#32) := by decide
theorem test_rdDigest : readBack (.rdDigest 7) base = some (.data 0x5be0cd19#32) := by decide
theorem test_cm20_rdCmd : readBack .rdCmd done3 = some (.data 0#32) := by decide
theorem test_cm20_rdDataWord : readBack .rdDataWord base = some (.data 0#32) := by decide
theorem test_cm20_rdDataByte : readBack .rdDataByte base = some (.data 0#32) := by decide

theorem test_cm3_to_cm5_bad_cmd :
    regsAfter (.cmdIllegal 0#28 0#4) base = some (0x00000204#32, 0#32, 0#32) ∧
    regsAfter (.cmdIllegal 1#28 1#4) (readyWith 3) = some (0x00030204#32, 0#32, 0x18#32) := by decide +kernel

theorem test_cm6_to_cm8_done :
    (regsAfter .finish done3).map Prod.fst = some 0x00000304#32 ∧
    (regsAfter (.cmdIllegal 0#28 5#4) done3).map Prod.fst = some 0x00000204#32 ∧
    (regsAfter (.wrDataByte 0x61#8 0#24) done3).map Prod.fst = some 0x00000304#32 := by decide +kernel

theorem test_cm9_to_cm13_busy :
    (regsAfter (.cmdIllegal 0#28 5#4) (compressing .toDone)).map Prod.fst = some 0x00000104#32 ∧
    (regsAfter (.wrDataWord 0#8 0#8 0#8 0#8) (compressing .toReady)).map Prod.fst = some 0x00000104#32 ∧
    (regsAfter .init (compressing .toPad2)).map Prod.fst = some 0x00000008#32 ∧
    (regsAfter (.wrDigest 0 0#32) (compressing .toReady)).map Prod.fst = some 0x00000001#32 ∧
    (regsAfter (.wrIrqEn true false 0#30) (compressing .toDone)).map Prod.fst = some 0x00000011#32 := by
  decide +kernel

theorem test_cm14_to_cm16_error :
    (regsAfter .finish error4).map Prod.fst = some 0x00010404#32 ∧
    (regsAfter (.wrIrqEn false true 0#30) error4).map Prod.fst = some 0x00010424#32 ∧
    (regsAfter .init error4).map Prod.fst = some 0x00000008#32 := by decide +kernel

theorem test_cm17_to_cm19_irq_en :
    (regsAfter (.wrIrqEn true false 0#30) done3).map Prod.fst = some 0x00000022#32 ∧
    ((answer (.wrIrqEn true true 0x3FFFFFFF#30) base).bind (readBack .rdIrqEn)) = some (.data 3#32) := by
  decide +kernel

theorem test_cm21_to_cm23_finish_raw :
    (regsAfter .finishRaw base).map Prod.fst = some 0x00000604#32 ∧
    (regsAfter .finishRaw (readyWith 63)).map Prod.fst = some 0x003F0604#32 ∧
    (regsAfter .finishRaw (readyWith 64)).map Prod.fst = some 0x00000002#32 := by decide +kernel

theorem test_cm26_read_only_writes :
    [Instr.wrId 1#32, .wrStatus 0xFFFFFFFF#32, .wrLenLo 1#32, .wrLenHi 1#32].map (fun i => answer i error4) =
      List.replicate 4 (some { error4 with resp := .ok }) := by decide +kernel

/-! ### The step -/

/-- CM24: a bus error changes nothing but the answer. -/
theorem test_step_bus_error :
    step { base with inputs := [.access ⟨1, 0x08#6, false, 0#32⟩] } = .next { base with resp := .busErr } := by rfl

/-- With an access waiting in COMPRESS, the grant decides which agent moves (R13). -/
theorem test_step_interleaves :
    (∃ t, step { compressing .toReady with inputs := [.access Instr.finish.access], grant := 0 } = .next t ∧ t.r = 4) ∧
    (∃ t, step { compressing .toReady with inputs := [.access Instr.finish.access], grant := 1 } = .next t ∧
      t.err = .busy) := ⟨⟨_, rfl, rfl⟩, ⟨_, rfl, rfl⟩⟩

/-- The first operation after reset is the one that `withFetchWord` places. -/
theorem test_step_from_reset :
    step (State.reset.withFetchWord 40 0x4400000002) = exec .finish State.reset := by rfl

/-- The UPDATE micro-step (R166) from TO_PAD2 goes on with the second padding block (R113). -/
theorem test_update_to_pad2 :
    ({ compressing .toPad2 with r := 64, len := 56#61 } : State).microStep.buf[62] = 0x01#8 ∧
    ({ compressing .toPad2 with r := 64, len := 56#61 } : State).microStep.buf[63] = 0xC0#8 ∧
    ({ compressing .toPad2 with r := 64, len := 56#61 } : State).microStep.nxt = .toDone := by decide +kernel

/-! ### Host programs (R92, R93) -/

/-- P1's encodings: "abc" pushed byte by byte. -/
theorem test_program_words_of_p1 :
    programWords (expandPseudos 0 0 [.init, .push [0x61#8, 0x62#8, 0x63#8], .finish, .waitEnd]) =
      [0x4400000001#39, 0x5000000061#39, 0x5000000062#39, 0x5000000063#39, 0x4400000002#39, 0x0800000000#39] := by
  decide

/-- After the write that completes a block, PUSH waits (R92, P2). -/
theorem test_push_waits_after_a_block :
    pushBytes 5 60 [0x61#8, 0x61#8, 0x61#8, 0x61#8] =
      [.wr .dataWord 0x61616161#32, .rd .status (some 0), .bnz 0 1#32 6] := by decide

/-- A platform whose host counts bus errors and rising edges of `irq`. -/
def countingPlatform : Config.Platform (HostState (Nat × Nat)) where
  shaBase := 0x1000
  tStep := 1
  tAccess := 1
  busErrEffect h := { h with rest := (h.rest.1 + 1, h.rest.2) }
  irqRoute before now h := if now && !before then { h with rest := (h.rest.1, h.rest.2 + 1) } else h

/-- A host with a program, and an engine, on that platform. -/
def systemOf (s : State) (program : List HostStmt) : System (Nat × Nat) := ⟨s, program, 0, [], (0, 0)⟩

/-- A polling read goes to the host's variable (R91). -/
theorem test_host_reads_status :
    ((systemOf base (Machine.waitIdle 0)).run countingPlatform [.host, .host]).map
      (fun x => (x.host.pc, x.host.vars)) = some (2, [(0, 0x00000008#32)]) := by decide +kernel

/-- A bus error (R62) and a rising `irq` (R214's example) reach the host as the platform says (R8). -/
theorem test_platform_effects :
    ((systemOf done3 [.wr .irqEn 0x1#32]).run countingPlatform [.hostAccess 0x1008 1 false 0#32, .host]).map
      (fun x => (x.host.rest, x.engine.st)) = some ((1, 1), .done) := by decide +kernel

/-- A platform whose route captures the level of `irq`. -/
def levelPlatform : Config.Platform (HostState (Nat × Nat)) :=
  { countingPlatform with irqRoute := fun _ now h => if now then { h with rest := (h.rest.1, h.rest.2 + 1) } else h }

/-- A line that stays asserted reaches the host at a branch too (R269: "A handler that returns without doing either is
interrupted again"; log 11). -/
theorem test_level_reaches_the_host_at_a_branch :
    ((systemOf { done3 with irqEn := 0b01#2 } (Machine.waitIdle 0)).run levelPlatform [.host, .host]).map
      (fun x => x.host.rest.2) = some 2 := by decide +kernel

/-- In reset neither agent moves; the release leaves the state after reset (R260, U12). -/
theorem test_system_in_reset :
    ((systemOf done3 [.rd .id none]).run countingPlatform [.resetInput true, .host]).isNone = true ∧
    ((systemOf (compressing .toDone) []).run countingPlatform [.resetInput true, .engine]).isNone = true ∧
    ((systemOf done3 []).run countingPlatform [.resetInput true, .resetInput false]).map
      (fun x => (x.engine.st, x.engine.len)) = some (.ready, 0#61) := by decide +kernel

end Sys2Proof.Tests
end

