-- ==== Sys2Proof/Tests/Witnesses.lean ====
section
/-!
SUPPORT. For every statement with hypotheses, a state and operands that meet all of them together, and one for each
clause at a boundary value. A statement about every state, with no hypothesis, has none.
-/

namespace Sys2Proof.Tests

open Sys2Proof.Machine

/-- A state with one input waiting, which the host moves next to take. -/
def waiting (s : State) (inp : Input) : State := { s with inputs := [inp], grant := 1 }

/-- A state with one operation's access waiting. -/
def waitingFor (s : State) (i : Instr) : State := waiting s (.access i.access)

/-! ### Encoding -/

theorem witness_DecoderIsFirstMatchOrBusErr :
    (⟨4, 0x3C#6, true, 0#32⟩ : Access).off.extractLsb' 0 2 = 0#2 ∧
    (⟨4, 0x3D#6, true, 0#32⟩ : Access).off.extractLsb' 0 2 ≠ 0#2 ∧ (⟨8, 0x00#6, true, 0#32⟩ : Access).size ≠ 4 := by
  decide

theorem witness_DecodeEncodeRoundTrip :
    (Instr.wrDigest 7 0xFFFFFFFF#32).wf = true ∧ (Instr.cmdIllegal 0#28 4#4).wf = true ∧
    (Instr.cmdIllegal 0xFFFFFFF#28 1#4).wf = true := by decide

theorem witness_EncodeDecodeRoundTrip : decode 0x3C00000001#39 = .ok (.rdDigest 7) := by decide

theorem witness_OnlyCmdIllegalOverlapsOtherRows :
    ∃ p ∈ opcodeRows, ∃ q ∈ opcodeRows, p ≠ q ∧
      0x4400000001#39 &&& p.mask = p.pattern ∧ 0x4400000001#39 &&& q.mask = q.pattern := by decide

theorem witness_WindowDecodesItsOffsets :
    windowOff 0x1000 0x103F = some 0x3F#6 ∧ windowOff 0x1000 0x0FFF = none ∧ windowOff 0x1000 0x1040 = none := by decide

/-! ### The step -/

theorem witness_StepRunsDecodedOperation :
    (waitingFor (compressing .toDone) .rdStatus).HostMoves ∧ decodeAccess Instr.rdStatus.access = .ok .rdStatus ∧
    (waiting base (.access ⟨4, 0x01#6, true, 0#32⟩)).HostMoves ∧
    decodeAccess ⟨4, 0x01#6, true, 0#32⟩ = .error .misaligned := by decide

theorem witness_BadAccessAnswersBusErr :
    (0x01#6).extractLsb' 0 2 ≠ 0#2 ∧ (0x3F#6).extractLsb' 0 2 ≠ 0#2 ∧
    (⟨2, 0x00#6, true, 0#32⟩ : Access).size ≠ 4 ∧ (⟨8, 0x00#6, true, 0#32⟩ : Access).size ≠ 4 ∧
    (⟨4, 0x3C#6, true, 0#32⟩ : Access).off.extractLsb' 0 2 = 0#2 := by decide

theorem witness_IdleOutsideCompress : base.st ≠ .compress ∧ base.inReset = false ∧ base.inputs = [] := by decide

theorem witness_StepRefusesOnlyAccessInReset :
    step { waitingFor base .init with inReset := true } = .refused .accessDuringReset ∧
    (waitingFor base .init).inReset = false := ⟨rfl, rfl⟩

theorem witness_EngineMovesWithinItsGrant :
    (compressing .toReady).EngineMoves ∧ ¬(waitingFor (compressing .toReady) .rdId).EngineMoves ∧
    ∃ t, step (waitingFor (compressing .toReady) .rdId) = .next t := ⟨by decide, by decide, ⟨_, rfl⟩⟩

/-! ### Reads and control registers -/

theorem witness_ReadsChangeNothing : Instr.rdStatus.isWrite = false ∧ (Instr.rdDigest 7).isWrite = false := by decide

theorem witness_InterruptLineIsALevel :
    (∃ t, exec .init done3 = .next t) ∧
    (done3.st = .done ∧ ∃ t, exec (.wrIrqEn false true 0#30) done3 = .next t) ∧
    (error4.st = .error ∧ ∃ t, exec (.wrIrqEn true false 0#30) error4 = .next t) :=
  ⟨⟨_, rfl⟩, ⟨rfl, ⟨_, rfl⟩⟩, ⟨rfl, ⟨_, rfl⟩⟩⟩

/-! ### Commands and intake -/

theorem witness_FinishBuildsTheFinalBlock :
    ∀ n ∈ [0, 55, 56, 63], (readyWith n).st = .ready ∧ (readyWith n).cnt.val = n := by decide

theorem witness_FinishRawEndsOrRejects :
    base.st = .ready ∧ base.len.toNat = 0 ∧ (readyWith 63).cnt ≠ 0 ∧
    (readyWith 64).len.toNat ≠ 0 ∧ (readyWith 64).cnt = 0 ∧
    (compressing .toReady).st = .compress ∧ done3.st = .done ∧ error4.st = .error := by decide

theorem witness_IllegalCommandRaisesBadCmd :
    (0x00000000#32 ≠ 1#32 ∧ 0x00000004#32 ≠ 3#32 ∧ 0x80000001#32 ≠ 1#32) ∧
    base.st = .ready ∧ done3.st = .done ∧ (compressing .toDone).st = .compress ∧ error4.st = .error := by decide

theorem witness_DataWordAppendsFourBytes :
    (∀ n ∈ [0, 56, 60, 2 ^ 61 - 8], (readyWith n).Inv ∧ (readyWith n).st = .ready ∧
      (readyWith n).len.toNat % 4 = 0 ∧ (readyWith n).len.toNat ≤ 2 ^ 61 - 5) ∧
    ((readyWith 1).Inv ∧ (readyWith 1).len.toNat % 4 ≠ 0) ∧
    ((readyWith (2 ^ 61 - 4)).Inv ∧ (readyWith (2 ^ 61 - 4)).len.toNat % 4 = 0 ∧
      (readyWith (2 ^ 61 - 4)).len.toNat > 2 ^ 61 - 5) ∧
    (error4.Inv ∧ error4.st = .error) ∧ (done3.Inv ∧ done3.st = .done) ∧
    ((compressing .toReady).Inv ∧ (compressing .toReady).st = .compress) :=
  ⟨by decide +kernel, by decide +kernel, by decide +kernel, by decide +kernel, by decide +kernel, by decide +kernel⟩

theorem witness_DataWordFillsBlockOnlyWithLastByte :
    ∀ n ∈ [0, 60, 2 ^ 61 - 8], (readyWith n).Inv ∧ (readyWith n).st = .ready ∧
      (readyWith n).len.toNat % 4 = 0 ∧ (readyWith n).len.toNat ≤ 2 ^ 61 - 5 := by decide +kernel

theorem witness_DataByteAppendsOneByte :
    (∀ n ∈ [0, 62, 63, 2 ^ 61 - 2], (readyWith n).st = .ready ∧ (readyWith n).len.toNat ≠ 2 ^ 61 - 1) ∧
    (readyWith (2 ^ 61 - 1)).len.toNat = 2 ^ 61 - 1 ∧
    error4.st = .error ∧ done3.st = .done ∧ (compressing .toReady).st = .compress := by decide +kernel

/-! ### Errors -/

theorem witness_WritesRejectedOutsideReady :
    canRaise .finish = true ∧ (compressing .toDone).st = .compress ∧
    canRaise (.cmdIllegal 0#28 0#4) = true ∧ done3.st = .done ∧
    (Instr.wrDigest 7 0#32).isWrite = true ∧ canRaise (.wrDigest 7 0#32) = false ∧ Instr.wrDigest 7 0#32 ≠ .init ∧
    (Instr.rdDigest 7).isWrite = false := by decide

theorem witness_ErrorIgnoresOtherWrites :
    error4.st = .error ∧ Instr.finish.isWrite = true ∧ Instr.finish ≠ .init ∧ (∀ d e x, Instr.finish ≠ .wrIrqEn d e x) ∧
    Instr.rdStatus.isWrite = false := by
  refine ⟨rfl, rfl, by decide, ?_, rfl⟩
  intro d e x h
  cases h

theorem witness_ErrorEntryChangesNothingElse :
    ∃ t, exec .finishRaw base = .next t ∧ base.st ≠ .error ∧ t.st = .error := ⟨_, rfl, by decide, rfl⟩

theorem about_waitingFor {s : State} {i : Instr} (hr : s.inReset = false) (hd : decodeAccess i.access = .ok i) :
    (waitingFor s i).About i :=
  ⟨⟨hr, fun _ h => absurd h Nat.one_ne_zero⟩, _, _, rfl, hd⟩

theorem witness_ErrorLeftOnlyByInitOrReset :
    (∃ t, step (waitingFor error4 .init) = .next t ∧ t.st ≠ .error) ∧
    (∃ t, step { waiting error4 .resetRelease with inReset := true } = .next t ∧ t.st ≠ .error) ∧
    error4.st = .error := ⟨⟨_, rfl, by decide⟩, ⟨_, rfl, by decide⟩, rfl⟩

/-! ### Who writes what -/

/-- DONE with a hash state that is not IV, LEN not 0 and both interrupts enabled. -/
def used : State := { done3 with h := Vector.replicate 8 0#32, irqEn := 0b11#2 }

theorem witness_HashStateWrittenOnlyByInitResetUpdate :
    (∃ t, step (waitingFor used .init) = .next t ∧ t.h ≠ used.h) ∧
    (∃ t, step { waiting used .resetRelease with inReset := true } = .next t ∧ t.h ≠ used.h) ∧
    (∃ t, step { compressing .toDone with r := 64 } = .next t ∧ t.h ≠ (compressing .toDone).h) :=
  ⟨⟨_, rfl, by decide +kernel⟩, ⟨_, rfl, by decide +kernel⟩, ⟨_, rfl, by decide +kernel⟩⟩

theorem witness_IrqEnWrittenOnlyByItsRegisterOrReset :
    (∃ t, step (waitingFor base (.wrIrqEn true false 0#30)) = .next t ∧ t.irqEn ≠ base.irqEn) ∧
    (∃ t, step { waiting used .resetRelease with inReset := true } = .next t ∧ t.irqEn ≠ used.irqEn) :=
  ⟨⟨_, rfl, by decide +kernel⟩, ⟨_, rfl, by decide +kernel⟩⟩

theorem witness_ErrorCodeWrittenOnlyByErrorEntryInitReset :
    (∃ t, step (waitingFor error4 .init) = .next t ∧ t.err ≠ error4.err) ∧
    (∃ t, step { waiting error4 .resetRelease with inReset := true } = .next t ∧ t.err ≠ error4.err) ∧
    (∃ t, step (waitingFor base .finishRaw) = .next t ∧ t.err ≠ base.err) :=
  ⟨⟨_, rfl, by decide +kernel⟩, ⟨_, rfl, by decide +kernel⟩, ⟨_, rfl, by decide +kernel⟩⟩

theorem witness_LengthGrowsOnlyByAcceptedBytes :
    (∃ t, step (waitingFor used .init) = .next t ∧ t.len ≠ used.len) ∧
    (∃ t, step (waitingFor (readyWith 60) (.wrDataWord 1#8 2#8 3#8 4#8)) = .next t ∧ t.len ≠ (readyWith 60).len) ∧
    (∃ t, step (waitingFor (readyWith 63) (.wrDataByte 1#8 0#24)) = .next t ∧ t.len ≠ (readyWith 63).len) :=
  ⟨⟨_, rfl, by decide +kernel⟩, ⟨_, rfl, by decide +kernel⟩, ⟨_, rfl, by decide +kernel⟩⟩

theorem witness_EngineStateChangesOnlyOnNamedEvents :
    (∃ t, step (waitingFor base .finish) = .next t ∧ t.st ≠ base.st) ∧
    (∃ t, step { compressing .toDone with r := 64 } = .next t ∧ t.st ≠ .compress) ∧
    (∃ t, step (waitingFor used .init) = .next t ∧ t.st ≠ used.st) :=
  ⟨⟨_, rfl, by decide +kernel⟩, ⟨_, rfl, by decide +kernel⟩, ⟨_, rfl, by decide +kernel⟩⟩

/-! ### Invariants -/

theorem witness_InvariantKeptByEveryStep :
    (waitingFor (readyWith 60) (.wrDataWord 1#8 2#8 3#8 4#8)).Inv ∧
    (∃ t, step (waitingFor (readyWith 60) (.wrDataWord 1#8 2#8 3#8 4#8)) = .next t ∧ t.st = .compress) ∧
    ({ compressing .toReady with r := 64 } : State).Inv := ⟨by decide, ⟨_, rfl, by decide +kernel⟩, by decide⟩

theorem witness_NoBytesBufferedWhileCompressing :
    (waitingFor (readyWith 5) .finish).Inv ∧ (waitingFor (readyWith 5) .finish).EmptyInCompress ∧
    ∃ t, step (waitingFor (readyWith 5) .finish) = .next t ∧ t.st = .compress := ⟨by decide, by decide, ⟨_, rfl, rfl⟩⟩

/-- Two states that differ in every unobservable field. -/
theorem witness_UnobservableStateHasNoEffect :
    (readyWith 1).Agree { readyWith 1 with
      nxt := .toPad2, r := 64, v := iv, w := Vector.replicate 64 1#32, buf := (readyWith 1).buf.set 1 0xBB#8 } :=
  ⟨rfl, rfl, rfl, rfl, rfl, rfl, rfl, rfl, rfl, rfl, rfl, by decide +kernel, by decide⟩

/-! ### Micro-steps -/

theorem witness_RoundMicroStep :
    ∀ i ∈ [(0 : Fin 64), 63], ({ compressing .toDone with r := i.castSucc } : State).st = .compress ∧
      ({ compressing .toDone with r := i.castSucc } : State).r.val = i.val := by decide

theorem witness_UpdateMicroStep :
    ∀ n ∈ [Target.toReady, .toPad2, .toDone], ({ compressing n with r := 64 } : State).st = .compress ∧
      ({ compressing n with r := 64 } : State).r.val = 64 ∧ ({ compressing n with r := 64 } : State).nxt = n := by decide

theorem witness_FinishEndsAfter65Or130Steps :
    (∃ t, exec .finish (readyWith 55) = .next t) ∧ (∃ t, exec .finish (readyWith 56) = .next t) ∧
    (readyWith 55).st = .ready ∧ (readyWith 55).inReset = false ∧ (readyWith 55).inputs = [] :=
  ⟨⟨_, rfl⟩, ⟨_, rfl⟩, rfl, rfl, rfl⟩

theorem witness_CompressionAlwaysEnds :
    (compressing .toPad2).st = .compress ∧ (compressing .toPad2).inReset = false ∧ (compressing .toPad2).inputs = [] ∧
    ∀ inp ∈ [Input.access Instr.rdStatus.access, .access (Instr.wrIrqEn true true 0#30).access,
        .access (Instr.wrDigest 7 0#32).access, .access ⟨1, 0#6, true, 0#32⟩, .resetRelease],
      keepsCompression inp = true := by decide

theorem witness_RaceAtTheEndOfACompression :
    ∀ g ∈ [0, 1],
      let s : State := { compressing .toReady with r := 64, inputs := [.access Instr.finish.access], grant := g }
      s.EmptyInCompress ∧ s.st = .compress ∧ s.r.val = 64 ∧ s.nxt = .toReady ∧ s.inReset = false := by decide

/-! ### The algorithm -/

theorem witness_RotateIsBitwise : rotr 1#32 1 = 0x80000000#32 ∧ rotr 1#32 31 = 2#32 := by decide

theorem witness_SigmaChooseMajorityBits : (0 : Nat) < 32 ∧ (31 : Nat) < 32 := by decide

theorem witness_PadHasItsParts : ([] : List Byte).length < 2 ^ 61 ∧ (List.replicate 56 0x61#8).length < 2 ^ 61 := by decide

theorem witness_PadFinalAgreesWithPad :
    ∀ n ∈ [(0 : Fin 64), 55, 56, 63],
      n.val = (List.replicate n.val 0xAA#8).length % 64 ∧
      ∀ j : Fin 64, j < n →
        (List.replicate n.val 0xAA#8)[64 * ((List.replicate n.val 0xAA#8).length / 64) + j.val]? = some base.buf[j] := by
  decide +kernel

/-! ### Runs -/

/-- The engine can take any number of micro-steps. -/
theorem run_microSteps {m : Message} {s : State} (h : Run m s) (k : Nat) : Run m (State.microStep^[k] s) := by
  induction k with
  | zero => exact h
  | succ k ih => rw [Function.iterate_succ_apply']; exact ih.engine

/-- The message and the state after a list of operations. -/
def afterAll : List Instr → Message × State → Message × State
  | [], x => x
  | i :: rest, (m, s) => afterAll rest (m.after s i, (answer i s).getD s)

/-- A list of operations leads from a run to a run. -/
theorem run_afterAll (is : List Instr) : ∀ x : Message × State, Run x.1 x.2 → Run (afterAll is x).1 (afterAll is x).2 := by
  induction is with
  | nil => exact fun _ h => h
  | cons i rest ih =>
    intro x h
    obtain ⟨t, ht, -⟩ := exec_next i x.2
    exact ih _ (by simpa [answer, ht] using Run.host i h ht)

/-- The start of a run. -/
def start : Message × State := (⟨[], false⟩, base)

theorem run_start : Run start.1 start.2 := Run.start _ rfl rfl rfl rfl rfl

/-- Bytes in READY. -/
theorem witness_RunKeepsTheMessage : ∃ m s, Run m s ∧ s.st = .ready ∧ m.bytes = [1#8, 2#8, 3#8, 4#8] :=
  ⟨_, _, run_afterAll [.wrDataWord 1#8 2#8 3#8 4#8] start run_start, by decide +kernel, by decide +kernel⟩

/-- The empty message, ended by FINISH. -/
theorem witness_RunComputesTheDigest_finish : ∃ m s, Run m s ∧ s.st = .done ∧ m.raw = false :=
  ⟨_, _, run_microSteps (run_afterAll [.finish] start run_start) 65, by decide +kernel, by decide +kernel⟩

/-- The operations of program P4: the padded "abc" block, written by the host. -/
def paddedAbcWrites : List Instr :=
  [.wrDataWord 0x61#8 0x62#8 0x63#8 0x80#8] ++ List.replicate 14 (.wrDataWord 0#8 0#8 0#8 0#8) ++
    [.wrDataWord 0#8 0#8 0#8 0x18#8]

/-- Those operations, and the 65 micro-steps after them. -/
def afterPaddedAbc : Message × State :=
  ((afterAll paddedAbcWrites start).1, State.microStep^[65] (afterAll paddedAbcWrites start).2)

theorem run_afterPaddedAbc : Run afterPaddedAbc.1 afterPaddedAbc.2 :=
  run_microSteps (run_afterAll paddedAbcWrites start run_start) 65

/-- A padded block, ended by FINISH_RAW. -/
theorem witness_RunComputesTheDigest_raw : ∃ m s, Run m s ∧ s.st = .done ∧ m.raw = true :=
  ⟨_, _, run_afterAll [.finishRaw] afterPaddedAbc run_afterPaddedAbc, by decide +kernel, by decide +kernel⟩

/-- A step that is an operation, one that releases reset, and one that is neither (the engine's). -/
theorem witness_StepsStayRuns :
    (Run ⟨[], false⟩ (waitingFor base .finish) ∧ (∃ t, step (waitingFor base .finish) = .next t) ∧
      (waitingFor base .finish).About .finish) ∧
    (∃ t, step { waiting base .resetRelease with inReset := true } = .next t) ∧
    ({ waiting base .resetRelease with inReset := true } : State).AboutToReset ∧
    Run start.1 (afterAll [.finish] start).2 ∧ (afterAll [.finish] start).2.EngineMoves :=
  ⟨⟨Run.start _ rfl rfl rfl rfl rfl, ⟨_, rfl⟩, about_waitingFor rfl (by decide)⟩, ⟨_, rfl⟩, ⟨rfl, _, rfl⟩,
    run_afterAll [.finish] start run_start, by decide +kernel⟩

/-! ### Reset -/

theorem witness_ResetReleaseAndInitAgree :
    ({ used with inReset := true } : State).inReset = true ∧ ({ used with inReset := true } : State).inputs = [] ∧
    ({ waiting used .resetRelease with inReset := true } : State).inputs = .resetRelease :: [] ∧
    (waiting used .resetAssert).HostMoves ∧ (waiting used .resetAssert).inputs = .resetAssert :: [] ∧
    (waiting (compressing .toDone) .resetRelease).HostMoves := by
  refine ⟨rfl, rfl, rfl, ?_, rfl, ?_⟩ <;> decide

end Sys2Proof.Tests
end

section
/-!
PROOFS. The step, its grant and the runs it stays in (spec/00_scope.md R13, R14).
-/

namespace Sys2Proof.Machine

variable {m : Message} {s t : State} {i : Instr} {inp : Input} {rest : List Input}

/-! ### Rules of the step -/

/-- While reset is asserted, the step takes the oldest input (R260). -/
theorem step_of_inReset (hr : s.inReset = true) (hq : s.inputs = inp :: rest) :
    step s = (s.dropInput rest).takeInputInReset inp := by
  simp [step, State.turn, hr, hq]

/-- Where an operation is about to be taken, the step executes it. -/
theorem step_of_about (h : s.About i) : ∃ rest, step s = exec i (s.dropInput rest) := by
  obtain ⟨hm, a, rest, hq, hd⟩ := h
  exact ⟨rest, (step_of_hostMoves hm hq).trans (State.busAccess_of_ok hd)⟩

/-- In COMPRESS, out of reset, one of the two agents moves: if not the engine, then the host, which has an input and a
grant for it. -/
theorem hostMoves_of_not_engineMoves (hc : s.st = .compress) (hr : s.inReset = false) (he : ¬s.EngineMoves) :
    s.HostMoves ∧ s.grant ≠ 0 ∧ ∃ inp rest, s.inputs = inp :: rest := by
  have hg : s.grant ≠ 0 := fun hg => he ⟨hr, hc, .inr hg⟩
  have hq : s.inputs ≠ [] := fun hq => he ⟨hr, hc, .inl hq⟩
  exact ⟨⟨hr, fun _ => hg⟩, hg, List.exists_cons_of_ne_nil hq⟩

/-- An input that is taken spends no grant of its own: the one it uses up is `State.dropInput`'s. -/
theorem State.takeInput_grant (h : s.takeInput inp = .next t) : t.grant = s.grant := by
  cases inp with
  | access a =>
    change s.busAccess a = .next t at h
    cases hd : decodeAccess a with
    | ok i => exact (exec_sameOutside (busAccess_of_ok hd ▸ h)).grant
    | error e => cases (busAccess_of_error hd).symm.trans h; rfl
  | resetAssert => cases h; rfl
  | resetRelease => cases h; rfl

/-! ### What keeps a run a run of the same message -/

theorem Run.dropInput (h : Run m s) (rest : List Input) : Run m (s.dropInput rest) :=
  h.outside s.inReset rest s.resp (s.grant - 1) s.draws

theorem Run.respond (h : Run m s) (a : Response) : Run m (s.respond a) :=
  h.outside s.inReset s.inputs a s.grant s.draws

theorem Run.assertReset (h : Run m s) : Run m { s with inReset := true } :=
  h.outside true s.inputs s.resp s.grant s.draws

theorem Run.engineTurn (h : Run m s) : Run m s.engineTurn :=
  h.engine.outside s.microStep.inReset s.microStep.inputs s.microStep.resp (Config.freeGrant s.draws) (s.draws + 1)

/-- The release of reset begins a run, whatever was before it (R14, R260). -/
theorem run_releaseReset (s : State) : Run ⟨[], false⟩ s.releaseReset := .start _ rfl rfl rfl rfl rfl

/-- Out of reset, an input that decodes to no operation keeps the message. -/
theorem Run.takeInput (h : Run m s) (hop : ∀ a i, inp = .access a → decodeAccess a ≠ .ok i)
    (ht : s.takeInput inp = .next t) : Run m t := by
  cases inp with
  | access a =>
    cases hd : decodeAccess a with
    | ok i => exact absurd hd (hop a i rfl)
    | error e => cases (State.busAccess_of_error hd).symm.trans ht; exact h.respond _
  | resetAssert => cases ht; exact h.assertReset
  | resetRelease => cases ht; exact h

/-- While reset is asserted, an input that does not release it keeps the message. -/
theorem Run.takeInputInReset (h : Run m s) (hrel : inp ≠ .resetRelease)
    (ht : s.takeInputInReset inp = .next t) : Run m t := by
  cases inp with
  | access a => cases ht
  | resetAssert => cases ht; exact h
  | resetRelease => exact absurd rfl hrel

/-- What an operation makes of the message depends on the engine's state, and not on what waits outside it. -/
theorem Message.after_dropInput (m : Message) (s : State) (rest : List Input) (i : Instr) :
    m.after (s.dropInput rest) i = m.after s i := by
  cases i <;> rfl

/-! ### Steps from a run, by what the step is -/

theorem Run.step_of_about (h : Run m s) (ha : s.About i) (ht : step s = .next t) : Run (m.after s i) t := by
  obtain ⟨rest, hs⟩ := Machine.step_of_about ha
  rw [← m.after_dropInput s rest i]
  exact (h.dropInput rest).host i (hs.symm.trans ht)

theorem run_of_aboutToReset (ha : s.AboutToReset) (ht : step s = .next t) : Run ⟨[], false⟩ t := by
  obtain ⟨hr, rest, hq⟩ := ha
  cases (step_of_inReset hr hq).symm.trans ht
  exact run_releaseReset _

theorem Run.step_of_neither (h : Run m s) (ha : ∀ i, ¬s.About i) (hrel : ¬s.AboutToReset)
    (ht : step s = .next t) : Run m t := by
  obtain ⟨-, -, hs⟩ | ⟨inp, rest, hr, hq, hs⟩ | ⟨-, -, -, hs⟩ | ⟨-, hs⟩ | ⟨inp, rest, hm, hq, hs⟩ := step_cases s
  · cases hs.symm.trans ht; exact h
  · refine (h.dropInput rest).takeInputInReset ?_ (hs.symm.trans ht)
    rintro rfl
    exact hrel ⟨hr, rest, hq⟩
  · cases hs.symm.trans ht; exact h
  · cases hs.symm.trans ht; exact h.engineTurn
  · refine (h.dropInput rest).takeInput ?_ (hs.symm.trans ht)
    rintro a i rfl hd
    exact ha i ⟨hm, a, rest, hq, hd⟩

/-! ### The obligations -/

/-- Settles O58: an operation is the run's host move, the release of reset begins a run, and every other step is the
engine's move, one outside it, or none. -/
theorem stepsStayRuns : Obligations.StepsStayRuns :=
  ⟨.start _ rfl rfl rfl rfl rfl, fun _ _ _ h ht =>
    ⟨fun _ ha => h.step_of_about ha ht, fun ha => run_of_aboutToReset ha ht,
      fun ha hrel => h.step_of_neither ha hrel ht⟩⟩

/-- Settles O7: the step is the access in the state with the input dropped. -/
theorem stepRunsDecodedOperation : Obligations.StepRunsDecodedOperation := by
  intro s a rest hm hq
  have hs : step s = (s.dropInput rest).busAccess a := step_of_hostMoves hm hq
  exact ⟨fun i hd => hs.trans (State.busAccess_of_ok hd), fun e hd => hs.trans (State.busAccess_of_error hd)⟩

/-- Settles O11: where the engine does not move the host takes an input, and the grant for it is used up. -/
theorem engineMovesWithinItsGrant : Obligations.EngineMovesWithinItsGrant := by
  refine fun s => ⟨step_of_engineMoves, fun t hc hr he ht => ?_⟩
  obtain ⟨hm, hg, inp, rest, hq⟩ := hostMoves_of_not_engineMoves hc hr he
  have hgrant : t.grant = s.grant - 1 := State.takeInput_grant ((step_of_hostMoves hm hq).symm.trans ht)
  omega

end Sys2Proof.Machine
end

section
/-!
PROOFS. What an operation and a step can do, each said once as an inductive relation with one case an effect: who
writes which field (spec/10_state.md R21 to R28) and the invariant of R46 are read off its cases.
-/

namespace Sys2Proof.Machine

variable {m : Message} {s t : State} {i : Instr} {c : ErrCode}

/-! ### Appending bytes -/

theorem State.appendByte_len_toNat (b : Byte) (h : s.len.toNat < 2 ^ 61 - 1) :
    (s.appendByte b).len.toNat = s.len.toNat + 1 := by
  rw [appendByte_len]; bv_omega

theorem State.appendByte_cnt_val (b : Byte) (h : s.cnt ≠ 63) : (s.appendByte b).cnt.val = s.cnt.val + 1 := by
  have hne : s.cnt.val ≠ 63 := fun h63 => h (Fin.ext h63)
  rw [appendByte_of_ne b h]
  exact Fin.val_add_one_of_lt (Fin.lt_def.mpr (by simp; omega))

theorem State.appendByte_st_of_ne (b : Byte) (h : s.cnt ≠ 63) : (s.appendByte b).st = s.st := by
  rw [appendByte_of_ne b h]

theorem State.appendByte_st_of_eq (b : Byte) (h : s.cnt = 63) : (s.appendByte b).st = .compress := by
  rw [appendByte_of_eq b h, startCompress_st]

/-- `AppendByte` for each byte of a list, in order. -/
def State.appendBytes (s : State) (bs : List Byte) : State := bs.foldl State.appendByte s

@[simp] theorem State.appendBytes_nil (s : State) : s.appendBytes [] = s := rfl

@[simp] theorem State.appendBytes_cons (s : State) (b : Byte) (bs : List Byte) :
    s.appendBytes (b :: bs) = (s.appendByte b).appendBytes bs := rfl

@[simp] theorem State.appendBytes_h (bs : List Byte) (s : State) : (s.appendBytes bs).h = s.h := by
  induction bs generalizing s with
  | nil => rfl
  | cons b bs ih => simp [ih]

@[simp] theorem State.appendBytes_err (bs : List Byte) (s : State) : (s.appendBytes bs).err = s.err := by
  induction bs generalizing s with
  | nil => rfl
  | cons b bs ih => simp [ih]

@[simp] theorem State.appendBytes_irqEn (bs : List Byte) (s : State) : (s.appendBytes bs).irqEn = s.irqEn := by
  induction bs generalizing s with
  | nil => rfl
  | cons b bs ih => simp [ih]

/-- LEN grows by the number of bytes taken in, where it has the room. -/
theorem State.appendBytes_len_toNat (bs : List Byte) (s : State) (h : s.len.toNat + bs.length ≤ 2 ^ 61 - 1) :
    (s.appendBytes bs).len.toNat = s.len.toNat + bs.length := by
  induction bs generalizing s with
  | nil => rfl
  | cons b bs ih =>
    rw [List.length_cons] at h ⊢
    have hb := State.appendByte_len_toNat (s := s) b (by omega)
    rw [appendBytes_cons, ih _ (by omega), hb]
    omega

/-- The induction behind an accepted DATA write: its bytes reach at most the end of the block, so each of them finds
the engine in READY, and what one byte keeps, all of them keep. -/
theorem State.appendBytes_induction {P : List Byte → State → Prop}
    (hP : ∀ {p s} b, P p s → s.st = .ready → s.len.toNat < 2 ^ 61 - 1 → P (p ++ [b]) (s.appendByte b))
    (bs : List Byte) {p : List Byte} {s : State} (h : P p s) (hs : s.st = .ready)
    (hcnt : s.cnt.val + bs.length ≤ 64) (hlen : s.len.toNat + bs.length ≤ 2 ^ 61 - 1) :
    P (p ++ bs) (s.appendBytes bs) := by
  induction bs generalizing p s with
  | nil => simpa using h
  | cons b bs ih =>
    rw [List.length_cons] at hcnt hlen
    have hb := hP b h hs (by omega)
    by_cases hfull : s.cnt = 63
    · obtain rfl : bs = [] := List.length_eq_zero_iff.mp (by rw [hfull] at hcnt; simp at hcnt; omega)
      exact hb
    · have hcnt1 := State.appendByte_cnt_val b hfull
      have hlen1 := State.appendByte_len_toNat (s := s) b (by omega)
      rw [List.append_cons]
      exact ih hb ((State.appendByte_st_of_ne b hfull).trans hs) (by omega) (by omega)

/-! ### What an operation can do -/

/-- Executed in `s`, the operation adds no byte to the message of the run. -/
def GivesNoByte (i : Instr) (s : State) : Prop := ∀ m : Message, (m.after s i).bytes = m.bytes

/-- All an operation can make of a state. -/
inductive ExecEffect : Instr → State → State → Prop where
  /-- Only the answer is new. -/
  | quiet {i : Instr} {s : State} (a : Response) : GivesNoByte i s → ExecEffect i s (s.respond a)
  | irqEn {s : State} (d e : Bool) (x : BitVec 30) :
    ExecEffect (.wrIrqEn d e x) s ({ s with irqEn := BitVec.ofBool e ++ BitVec.ofBool d } |>.respond .ok)
  | init {s : State} : ExecEffect .init s (s.startRun.respond .ok)
  | raise {i : Instr} {s : State} (c : ErrCode) : canRaise i = true → c ≠ .none → GivesNoByte i s →
    ExecEffect i s ((s.raiseError c).respond .ok)
  | finish {s : State} : s.st = .ready → ExecEffect .finish s (s.padFinal.respond .ok)
  | finishRaw {s : State} : s.st = .ready → ExecEffect .finishRaw s ({ s with st := .done } |>.respond .ok)
  | takeWord {s : State} (b0 b1 b2 b3 : Byte) : s.st = .ready → s.len.toNat % 4 = 0 → s.len.toNat ≤ 2 ^ 61 - 5 →
    ExecEffect (.wrDataWord b0 b1 b2 b3) s ((s.appendBytes [b0, b1, b2, b3]).respond .ok)
  | takeByte {s : State} (b : Byte) (x : BitVec 24) : s.st = .ready → s.len.toNat ≠ 2 ^ 61 - 1 →
    ExecEffect (.wrDataByte b x) s ((s.appendBytes [b]).respond .ok)

/-- A DATA write that is not accepted gives no byte, and nor does any other operation that can raise an error. -/
theorem givesNoByte_of_canRaise (hi : canRaise i = true)
    (hw : ∀ b0 b1 b2 b3, i = .wrDataWord b0 b1 b2 b3 → s.acceptsWord = false)
    (hb : ∀ b x, i = .wrDataByte b x → s.acceptsByte = false) : GivesNoByte i s := by
  intro m
  cases i with
  | wrDataWord b0 b1 b2 b3 => simp [Message.after, hw _ _ _ _ rfl]
  | wrDataByte b x => simp [Message.after, hb _ _ rfl]
  | finish => simp only [Message.after]; split <;> rfl
  | finishRaw => simp only [Message.after]; split <;> rfl
  | cmdIllegal => rfl
  | _ => cases hi

/-- Outside READY no write gives a byte. -/
theorem givesNoByte_of_not_ready (hi : canRaise i = true) (hs : s.st ≠ .ready) : GivesNoByte i s :=
  givesNoByte_of_canRaise hi (fun _ _ _ _ _ => by simp [State.acceptsWord, hs])
    (fun _ _ _ => by simp [State.acceptsByte, hs])

/-- A write behind the gate is ignored, raises an error, or does what it does in READY. -/
theorem ExecEffect.of_gate {k : State} (hi : canRaise i = true) (hc : c ≠ .none)
    (hk : s.st = .ready → ExecEffect i s (k.respond .ok)) : ExecEffect i s ((s.gate c k).respond .ok) := by
  obtain ⟨hs, hg⟩ | ⟨hs, hg⟩ | ⟨hs, hg⟩ | ⟨hs, hg⟩ := s.gate_cases c k <;> rw [hg]
  · exact .quiet _ (givesNoByte_of_not_ready hi (by simp [hs]))
  · exact .raise _ hi (by decide) (givesNoByte_of_not_ready hi (by simp [hs]))
  · exact .raise _ hi hc (givesNoByte_of_not_ready hi (by simp [hs]))
  · exact hk hs

theorem effect_endRaw (hs : s.st = .ready) : ExecEffect .finishRaw s (s.endRaw.respond .ok) := by
  obtain ⟨-, h⟩ | ⟨-, -, h⟩ := s.endRaw_cases <;> rw [h]
  · exact .raise _ rfl (by decide) (givesNoByte_of_canRaise rfl nofun nofun)
  · exact .finishRaw hs

theorem effect_takeWord (b0 b1 b2 b3 : Byte) (hs : s.st = .ready) :
    ExecEffect (.wrDataWord b0 b1 b2 b3) s ((s.takeWord b0 b1 b2 b3).respond .ok) := by
  obtain ⟨ha, h⟩ | ⟨-, hl, h⟩ | ⟨ha, hl, h⟩ := s.takeWord_cases b0 b1 b2 b3 <;> rw [h]
  · exact .raise _ rfl (by decide)
      (givesNoByte_of_canRaise rfl (fun _ _ _ _ _ => by simp [State.acceptsWord, ha]) nofun)
  · exact .raise _ rfl (by decide)
      (givesNoByte_of_canRaise rfl (fun _ _ _ _ _ => by simp [State.acceptsWord]; omega) nofun)
  · exact .takeWord b0 b1 b2 b3 hs ha hl

theorem effect_takeByte (b : Byte) (x : BitVec 24) (hs : s.st = .ready) :
    ExecEffect (.wrDataByte b x) s ((s.takeByte b).respond .ok) := by
  obtain ⟨hl, h⟩ | ⟨hl, h⟩ := s.takeByte_cases b <;> rw [h]
  · exact .raise _ rfl (by decide)
      (givesNoByte_of_canRaise rfl nofun (fun _ _ _ => by simp [State.acceptsByte, hl]))
  · exact .takeByte b x hs hl

/-- Every operation has one of the effects. -/
theorem exec_effect (h : exec i s = .next t) : ExecEffect i s t := by
  cases i with
  | init => cases h; exact .init
  | wrIrqEn d e x => cases h; exact .irqEn d e x
  | finish => cases h; exact .of_gate rfl (by decide) .finish
  | finishRaw => cases h; exact .of_gate rfl (by decide) effect_endRaw
  | cmdIllegal =>
    cases h
    exact .of_gate rfl (by decide) fun _ => .raise _ rfl (by decide) (givesNoByte_of_canRaise rfl nofun nofun)
  | wrDataWord b0 b1 b2 b3 => cases h; exact .of_gate rfl (by decide) (effect_takeWord b0 b1 b2 b3)
  | wrDataByte b x => cases h; exact .of_gate rfl (by decide) (effect_takeByte b x)
  | _ => cases h; exact .quiet _ fun _ => rfl

/-! ### What a micro-step and a step can do -/

/-- All a micro-step can do: nothing outside COMPRESS, a round, or UPDATE with one of its three targets. -/
theorem State.microStep_cases (s : State) :
    (s.st ≠ .compress ∧ s.microStep = s) ∨
    (s.st = .compress ∧ ∃ j : Fin 64, s.r.val = j.val ∧ s.microStep = s.roundStep j) ∨
    (s.st = .compress ∧ s.r.val = 64 ∧
      ((s.nxt = .toReady ∧ s.microStep = { s with h := updateState s.h s.v, st := .ready }) ∨
       (s.nxt = .toDone ∧ s.microStep = { s with h := updateState s.h s.v, st := .done }) ∨
       (s.nxt = .toPad2 ∧ s.microStep =
        ({ s with h := updateState s.h s.v, buf := padBlock2 s.len } : State).startCompress
          (padBlock2 s.len) .toDone))) := by
  by_cases hc : s.st = .compress
  · by_cases hr : s.r.val < 64
    · exact .inr (.inl ⟨hc, ⟨s.r.val, hr⟩, rfl, microStep_of_lt hc hr⟩)
    · have hr : s.r.val = 64 := by omega
      refine .inr (.inr ⟨hc, hr, ?_⟩)
      rw [microStep_of_eq hc hr]
      cases hn : s.nxt with
      | toReady => exact .inl ⟨rfl, by rw [updateStep_of_toReady hn, hn]⟩
      | toPad2 => exact .inr (.inr ⟨rfl, updateStep_of_toPad2 hn⟩)
      | toDone => exact .inr (.inl ⟨rfl, by rw [updateStep_of_toDone hn, hn]⟩)
  · exact .inl ⟨hc, microStep_of_idle hc⟩

/-- All a step that answers a next state can do. -/
inductive StepEffect (s : State) : State → Prop where
  /-- The engine's record is as before: no move, a bus error, or a reset event that changes nothing in the engine. -/
  | outside (b : Bool) (q : List Input) (a : Response) (g d : Nat) : StepEffect s (s.withOutside b q a g d)
  | release (rest : List Input) : s.AboutToReset → StepEffect s (s.dropInput rest).releaseReset
  | engine : s.EngineMoves → StepEffect s s.engineTurn
  | operation {t : State} (i : Instr) (rest : List Input) :
    s.About i → ExecEffect i (s.dropInput rest) t → StepEffect s t

theorem StepEffect.refl (s : State) : StepEffect s s := .outside s.inReset s.inputs s.resp s.grant s.draws

theorem StepEffect.takeInput {inp : Input} {rest : List Input} (hm : s.HostMoves) (hq : s.inputs = inp :: rest)
    (ht : (s.dropInput rest).takeInput inp = .next t) : StepEffect s t := by
  cases inp with
  | access a =>
    cases hd : decodeAccess a with
    | ok i => exact .operation i rest ⟨hm, a, rest, hq, hd⟩ (exec_effect ((State.busAccess_of_ok hd).symm.trans ht))
    | error e =>
      cases (State.busAccess_of_error hd).symm.trans ht
      exact .outside s.inReset rest .busErr (s.grant - 1) s.draws
  | resetAssert => cases ht; exact .outside true rest s.resp (s.grant - 1) s.draws
  | resetRelease => cases ht; exact .outside s.inReset rest s.resp (s.grant - 1) s.draws

theorem StepEffect.takeInputInReset {inp : Input} {rest : List Input} (hr : s.inReset = true)
    (hq : s.inputs = inp :: rest) (ht : (s.dropInput rest).takeInputInReset inp = .next t) : StepEffect s t := by
  cases inp with
  | access a => cases ht
  | resetAssert => cases ht; exact .outside s.inReset rest s.resp (s.grant - 1) s.draws
  | resetRelease => cases ht; exact .release rest ⟨hr, rest, hq⟩

theorem step_effect (ht : step s = .next t) : StepEffect s t := by
  obtain ⟨-, -, hs⟩ | ⟨inp, rest, hr, hq, hs⟩ | ⟨-, -, -, hs⟩ | ⟨hm, hs⟩ | ⟨inp, rest, hm, hq, hs⟩ := step_cases s
  · cases hs.symm.trans ht; exact .refl s
  · exact .takeInputInReset hr hq (hs.symm.trans ht)
  · cases hs.symm.trans ht; exact .refl s
  · cases hs.symm.trans ht; exact .engine hm
  · exact .takeInput hm hq (hs.symm.trans ht)

/-! ### The invariant of R46 -/

/-- Two of the five clauses hold by the types of `r` and LEN (log 8). -/
theorem State.inv_iff (s : State) : s.Inv ↔
    (s.st = .ready → s.cnt.val = s.len.toNat % 64) ∧ (s.err ≠ .none ↔ s.st = .error) ∧
    (s.st = .compress → s.nxt = .toReady → s.cnt = 0 ∧ s.len.toNat % 64 = 0 ∧ 0 < s.len.toNat) := by
  have hlen : s.len.toNat ≤ 2 ^ 61 - 1 := by have := s.len.isLt; omega
  exact ⟨fun ⟨h1, h2, _, h4, _⟩ => ⟨h1, h2, h4⟩, fun ⟨h1, h2, h4⟩ => ⟨h1, h2, fun _ => s.r.is_le, h4, hlen⟩⟩

theorem State.Inv.cnt_eq (h : s.Inv) (hs : s.st = .ready) : s.cnt.val = s.len.toNat % 64 := by
  obtain ⟨hready, -⟩ := h
  exact hready hs

theorem State.Inv.err_eq (h : s.Inv) (hs : s.st ≠ .error) : s.err = .none := by
  obtain ⟨-, herr, -⟩ := h
  exact not_not.mp (mt herr.mp hs)

theorem State.Inv.block_boundary (h : s.Inv) (hs : s.st = .compress) (hn : s.nxt = .toReady) :
    s.cnt = 0 ∧ s.len.toNat % 64 = 0 ∧ 0 < s.len.toNat := by
  obtain ⟨-, -, -, hblock, -⟩ := h
  exact hblock hs hn

/-- A new run has the invariant: after reset, its release, and INIT. -/
theorem State.inv_of_start (hs : s.st = .ready) (hc : s.cnt = 0) (hl : s.len = 0#61) (he : s.err = .none) : s.Inv :=
  s.inv_iff.mpr ⟨fun _ => by simp [hc, hl], by simp [he, hs], by simp [hs]⟩

theorem State.inv_raiseError (s : State) (hc : c ≠ .none) : (s.raiseError c).Inv :=
  (inv_iff _).mpr ⟨by simp, by simp [hc], by simp⟩

theorem State.Inv.padFinal (h : s.Inv) (hs : s.st = .ready) : s.padFinal.Inv :=
  (inv_iff _).mpr ⟨by simp, by simp [h.err_eq (by simp [hs])], by simp; split <;> simp⟩

theorem State.Inv.toDone (h : s.Inv) (hs : s.st = .ready) : ({ s with st := .done } : State).Inv :=
  (inv_iff _).mpr ⟨by simp, by simp [h.err_eq (by simp [hs])], by simp⟩

/-- A byte taken in keeps the invariant: cnt and LEN grow together, and the byte that fills the block leaves LEN at a
block boundary. -/
theorem State.Inv.appendByte (b : Byte) (h : s.Inv) (hs : s.st = .ready) (hl : s.len.toNat < 2 ^ 61 - 1) :
    (s.appendByte b).Inv := by
  have hcnt := h.cnt_eq hs
  have herr := h.err_eq (by simp [hs])
  have hlen := State.appendByte_len_toNat b hl
  by_cases hfull : s.cnt = 63
  · rw [hfull] at hcnt
    have h64 : (s.len.toNat + 1) % 64 = 0 := by simp at hcnt; omega
    have hst := State.appendByte_st_of_eq b hfull
    have hcnt0 : (s.appendByte b).cnt = 0 := by rw [appendByte_of_eq b hfull, startCompress_cnt]
    exact (inv_iff _).mpr ⟨by simp [hst], by simp [hst, herr], fun _ _ => ⟨hcnt0, by omega, by omega⟩⟩
  · have hst := (State.appendByte_st_of_ne b hfull).trans hs
    have hcnt1 := State.appendByte_cnt_val b hfull
    have hlt := (s.appendByte b).cnt.isLt
    exact (inv_iff _).mpr ⟨fun _ => by omega, by simp [hst, herr], by simp [hst]⟩

/-- Four bytes that start at a multiple of four fit into BUF where the invariant holds. -/
theorem State.Inv.word_fits (h : s.Inv) (hs : s.st = .ready) (ha : s.len.toNat % 4 = 0) : s.cnt.val + 4 ≤ 64 := by
  have := h.cnt_eq hs
  omega

theorem State.Inv.effect (h : s.Inv) (he : ExecEffect i s t) : t.Inv := by
  cases he with
  | quiet a hm => exact h
  | irqEn d e x => exact h
  | init => exact State.inv_of_start rfl rfl rfl rfl
  | raise c hi hc hm => exact s.inv_raiseError hc
  | finish hs => exact h.padFinal hs
  | finishRaw hs => exact h.toDone hs
  | takeWord b0 b1 b2 b3 hs ha hl =>
    exact State.appendBytes_induction (P := fun _ s => s.Inv) (p := []) (fun b h => h.appendByte b)
      [b0, b1, b2, b3] h hs (h.word_fits hs ha) (by simp; omega)
  | takeByte b x hs hl => exact h.appendByte b hs (by have := s.len.isLt; omega)

theorem State.Inv.microStep (h : s.Inv) : s.microStep.Inv := by
  obtain ⟨-, hm⟩ | ⟨-, j, -, hm⟩ | ⟨hs, -, ⟨hn, hm⟩ | ⟨-, hm⟩ | ⟨-, hm⟩⟩ := s.microStep_cases <;> rw [hm]
  · exact h
  · exact (inv_iff _).mpr ((inv_iff s).mp h)
  · obtain ⟨hcnt, hlen, -⟩ := h.block_boundary hs hn
    exact (inv_iff _).mpr ⟨fun _ => by simp [hcnt, hlen], by simp [h.err_eq (by simp [hs])], by simp⟩
  · exact (inv_iff _).mpr ⟨by simp, by simp [h.err_eq (by simp [hs])], by simp⟩
  · exact (inv_iff _).mpr ⟨by simp, by simp [h.err_eq (by simp [hs])], by simp⟩

/-- Settles O40: the invariant is kept by every effect of an operation and by every micro-step, and the release of
reset establishes it. -/
theorem invariantKeptByEveryStep : Obligations.InvariantKeptByEveryStep := by
  intro s t h ht
  cases step_effect ht with
  | outside => exact h
  | release => exact State.inv_of_start rfl rfl rfl rfl
  | engine => exact h.microStep
  | operation i rest _ he => exact State.Inv.effect (s := s.dropInput rest) h he

/-- Settles O39: the state after reset is a new run, and it is READY. -/
theorem invariantAtReset : Obligations.InvariantAtReset :=
  ⟨State.inv_of_start rfl rfl rfl rfl, fun _ => rfl⟩

/-! ### Who writes what -/

/-- Settles O34: of the engine's moves a round keeps H, and of the operations all but INIT do. -/
theorem hashStateWrittenOnlyByInitResetUpdate : Obligations.HashStateWrittenOnlyByInitResetUpdate := by
  intro s t ht hne
  cases step_effect ht with
  | outside => exact absurd rfl hne
  | release rest hr => exact .inr (.inl hr)
  | engine he =>
    have ⟨_, hc, _⟩ := he
    obtain ⟨hs, -⟩ | ⟨-, j, -, hm⟩ | ⟨-, hr, -⟩ := s.microStep_cases
    · exact absurd hc hs
    · exact absurd (congrArg State.h hm) hne
    · exact .inr (.inr ⟨he, hr⟩)
  | operation i rest ha he =>
    cases he with
    | init => exact .inl ha
    | takeWord => exact absurd (State.appendBytes_h _ _) hne
    | takeByte => exact absurd (State.appendBytes_h _ _) hne
    | _ => exact absurd rfl hne

/-- Settles O35: the other operations and the engine's moves keep `irq_en`. -/
theorem irqEnWrittenOnlyByItsRegisterOrReset : Obligations.IrqEnWrittenOnlyByItsRegisterOrReset := by
  intro s t ht hne
  cases step_effect ht with
  | outside => exact absurd rfl hne
  | release rest hr => exact .inl ⟨hr, rfl⟩
  | engine =>
    obtain ⟨-, -, -, hirq, -⟩ := s.microStep_keeps
    exact absurd hirq hne
  | operation i rest ha he =>
    cases he with
    | irqEn d e x => exact .inr ⟨d, e, x, ha, rfl⟩
    | takeWord => exact absurd (State.appendBytes_irqEn _ _) hne
    | takeByte => exact absurd (State.appendBytes_irqEn _ _) hne
    | _ => exact absurd rfl hne

/-- Settles O36: only the error entry leaves a code, and only a new run clears it. -/
theorem errorCodeWrittenOnlyByErrorEntryInitReset : Obligations.ErrorCodeWrittenOnlyByErrorEntryInitReset := by
  intro s t ht hne
  cases step_effect ht with
  | outside => exact absurd rfl hne
  | release rest hr => exact .inl ⟨rfl, .inr hr⟩
  | engine =>
    obtain ⟨-, -, herr, -⟩ := s.microStep_keeps
    exact absurd herr hne
  | operation i rest ha he =>
    cases he with
    | init => exact .inl ⟨rfl, .inl ha⟩
    | raise c hi hc => exact .inr ⟨hc, rfl, i, ha, hi⟩
    | takeWord => exact absurd (State.appendBytes_err _ _) hne
    | takeByte => exact absurd (State.appendBytes_err _ _) hne
    | _ => exact absurd rfl hne

/-- Settles O37: an accepted write has the room for its bytes, so LEN does not wrap. -/
theorem lengthGrowsOnlyByAcceptedBytes : Obligations.LengthGrowsOnlyByAcceptedBytes := by
  intro s t ht hne
  cases step_effect ht with
  | outside => exact absurd rfl hne
  | release rest hr => exact .inl ⟨.inr hr, rfl⟩
  | engine =>
    obtain ⟨-, hlen, -⟩ := s.microStep_keeps
    exact absurd hlen hne
  | operation i rest ha he =>
    cases he with
    | init => exact .inl ⟨.inl ha, rfl⟩
    | takeWord b0 b1 b2 b3 hs hal hl =>
      have hlen := State.appendBytes_len_toNat [b0, b1, b2, b3] (s.dropInput rest) (by simp at hl ⊢; omega)
      exact .inr (.inl ⟨b0, b1, b2, b3, ha, hlen⟩)
    | takeByte b x hs hl =>
      have := s.len.isLt
      have hlen := State.appendBytes_len_toNat [b] (s.dropInput rest) (by simp at hl ⊢; omega)
      exact .inr (.inr ⟨b, x, ha, hlen⟩)
    | _ => exact absurd rfl hne

/-- Settles O38: a round keeps `st`, and an operation that cannot raise an error and is not INIT does too. -/
theorem engineStateChangesOnlyOnNamedEvents : Obligations.EngineStateChangesOnlyOnNamedEvents := by
  intro s t ht hne
  cases step_effect ht with
  | outside => exact absurd rfl hne
  | release rest hr => exact .inl hr
  | engine he =>
    have ⟨_, hc, _⟩ := he
    obtain ⟨hs, -⟩ | ⟨-, j, -, hm⟩ | ⟨-, hr, -⟩ := s.microStep_cases
    · exact absurd hc hs
    · exact absurd (congrArg State.st hm) hne
    · exact .inr (.inl ⟨he, hr⟩)
  | operation i rest ha he =>
    cases he with
    | quiet => exact absurd rfl hne
    | irqEn => exact absurd rfl hne
    | init => exact .inr (.inr (.inl ha))
    | raise c hi => exact .inr (.inr (.inr ⟨_, ha, hi⟩))
    | _ => exact .inr (.inr (.inr ⟨_, ha, rfl⟩))

end Sys2Proof.Machine
end

section
/-!
PROOFS. What a run has taken in: LEN counts the bytes of its message, and BUF holds those since the last block boundary
(spec/10_state.md R24 to R26).
-/

namespace Sys2Proof.Machine

variable {p : List Byte} {m : Message} {s t : State} {i : Instr}

/-- The bytes accepted since the last INIT or reset are `p`: LEN is their number, and in READY the first `cnt` bytes of
BUF are those after the last whole block. -/
structure State.TookIn (p : List Byte) (s : State) : Prop where
  inv : s.Inv
  len : s.len.toNat = p.length
  buf : s.st = .ready → ∀ j : Fin 64, j < s.cnt → p[64 * (p.length / 64) + j.val]? = some s.buf[j]

/-- Nothing is buffered outside READY, nor where cnt is 0, so only LEN has to be right. -/
theorem State.TookIn.of_empty (hinv : s.Inv) (hlen : s.len.toNat = p.length) (h : s.st = .ready → s.cnt = 0) :
    s.TookIn p where
  inv := hinv
  len := hlen
  buf hs j hj := absurd hj (by simp [h hs])

theorem State.TookIn.cnt_eq (h : s.TookIn p) (hs : s.st = .ready) : s.cnt.val = p.length % 64 :=
  h.len ▸ h.inv.cnt_eq hs

/-- The byte appended is the next of the message, and it stands behind the bytes already in BUF. -/
theorem State.TookIn.appendByte (b : Byte) (h : s.TookIn p) (hs : s.st = .ready) (hl : s.len.toNat < 2 ^ 61 - 1) :
    (s.appendByte b).TookIn (p ++ [b]) where
  inv := h.inv.appendByte b hs hl
  len := by rw [State.appendByte_len_toNat b hl, h.len, List.length_append, List.length_singleton]
  buf hs' j hj := by
    have hfull : s.cnt ≠ 63 := fun hf => by simp [State.appendByte_st_of_eq b hf] at hs'
    have hcnt1 := State.appendByte_cnt_val b hfull
    have hlt := (s.appendByte b).cnt.isLt
    have hcnt := h.cnt_eq hs
    have hblock : (p ++ [b]).length / 64 = p.length / 64 := by simp; omega
    have hle : j.val ≤ s.cnt.val := by omega
    rw [appendByte_buf, hblock, Fin.getElem_fin]
    obtain heq | hne := Nat.eq_or_lt_of_le hle
    · have hend : 64 * (p.length / 64) + s.cnt.val = p.length := by omega
      simp [heq, hend]
    · have hold := h.buf hs j hne
      rw [Vector.getElem_set_ne _ _ (by omega), List.getElem?_append_left (by omega)]
      exact hold

/-- An operation leaves in the engine the message it makes of the old one. -/
theorem State.TookIn.effect (h : s.TookIn m.bytes) (he : ExecEffect i s t) : t.TookIn (m.after s i).bytes := by
  have hinv := h.inv.effect he
  cases he with
  | quiet a hm => rw [hm]; exact ⟨hinv, h.len, h.buf⟩
  | irqEn d e x => exact ⟨hinv, h.len, h.buf⟩
  | init => exact .of_empty hinv rfl fun _ => rfl
  | raise c hi hc hm => rw [hm]; exact .of_empty hinv h.len nofun
  | finish hs => simp only [Message.after, hs, if_true]; exact .of_empty hinv h.len nofun
  | finishRaw hs => simp only [Message.after, hs, if_true]; exact .of_empty hinv h.len nofun
  | takeWord b0 b1 b2 b3 hs ha hl =>
    have hacc : s.acceptsWord = true := by simp [State.acceptsWord, hs, ha]; omega
    have ht : (s.appendBytes [b0, b1, b2, b3]).TookIn (m.bytes ++ [b0, b1, b2, b3]) :=
      appendBytes_induction (P := TookIn) (fun b h => h.appendByte b) _ h hs (h.inv.word_fits hs ha) (by simp; omega)
    simp only [Message.after, hacc, if_true]
    exact ⟨hinv, ht.len, ht.buf⟩
  | takeByte b x hs hl =>
    have hacc : s.acceptsByte = true := by simp [State.acceptsByte, hs]; omega
    have ht := h.appendByte b hs (by have := s.len.isLt; omega)
    simp only [Message.after, hacc, if_true]
    exact ⟨hinv, ht.len, ht.buf⟩

/-- A micro-step takes nothing in: it comes back to READY at a block boundary only. -/
theorem State.TookIn.microStep (h : s.TookIn p) : s.microStep.TookIn p := by
  have hinv := h.inv.microStep
  obtain ⟨-, hm⟩ | ⟨hs, j, -, hm⟩ | ⟨hs, -, ⟨hn, hm⟩ | ⟨-, hm⟩ | ⟨-, hm⟩⟩ := s.microStep_cases <;>
    rw [hm] at hinv ⊢
  · exact h
  · exact .of_empty hinv h.len (by simp [hs])
  · exact .of_empty hinv h.len fun _ => (h.inv.block_boundary hs hn).1
  · exact .of_empty hinv h.len nofun
  · exact .of_empty hinv h.len nofun

/-- Every run has taken in the bytes of its message. -/
theorem Run.tookIn (h : Run m s) : s.TookIn m.bytes := by
  induction h with
  | start s hs _ hc hl he => exact .of_empty (s.inv_of_start hs hc hl he) (by simp [hl]) fun _ => hc
  | host i _ hexec ih => exact ih.effect (exec_effect hexec)
  | engine _ ih => exact ih.microStep
  | outside _ _ _ _ _ _ ih => exact ⟨ih.inv, ih.len, ih.buf⟩

/-- Settles O56: the run has taken in its message. -/
theorem runKeepsTheMessage : Obligations.RunKeepsTheMessage :=
  fun _ _ h => ⟨h.tookIn.len, fun hs => ⟨h.tookIn.cnt_eq hs, h.tookIn.buf hs⟩⟩

end Sys2Proof.Machine
end

section
/-!
PROOFS. States that agree on all but the unobservable fields (spec/10_state.md R45): every operation of the model takes
two such states to two such states. Then the idle step and the registers after reset.
-/

namespace Sys2Proof.Machine

variable {s t : State} {c : ErrCode}

/-! ### What agreeing states show -/

/-- Outside COMPRESS nothing is asked of V, W, r and nxt. -/
theorem State.Agree.final_eq (h : s.Agree t) : s.final = t.final := by
  by_cases hs : s.st = .compress
  · simp [State.final, ← h.st, (h.compressing hs).1]
  · simp [State.final, ← h.st, beq_eq_false_iff_ne.mpr hs]

theorem State.Agree.irq_eq (h : s.Agree t) : s.irq = t.irq := by
  simp [State.irq, h.st, h.irqEn]

theorem State.Agree.readReg_eq (h : s.Agree t) (reg : Reg) : s.readReg reg = t.readReg reg := by
  cases reg with
  | status => simp [State.readReg, State.status, h.final_eq, h.irq_eq, h.st, h.err, h.cnt]
  | lenLo => simp [State.readReg, State.lenLo, h.len]
  | lenHi => simp [State.readReg, State.lenHi, h.len]
  | irqEn => simp [State.readReg, State.irqEnWord, h.irqEn]
  | digest i => simp [State.readReg, h.h]
  | _ => rfl

theorem State.Agree.view_eq (h : s.Agree t) : s.view = t.view := by
  simp [State.view, funext h.readReg_eq, h.irq_eq, h.resp]

/-! ### The shared operations keep agreement -/

theorem State.Agree.respond (h : s.Agree t) (a : Response) : (s.respond a).Agree (t.respond a) :=
  { h with resp := rfl }

theorem State.Agree.dropInput (h : s.Agree t) (rest : List Input) : (s.dropInput rest).Agree (t.dropInput rest) :=
  { h with inputs := rfl, grant := by simp [h.grant] }

theorem State.Agree.raiseError (h : s.Agree t) (c : ErrCode) : (s.raiseError c).Agree (t.raiseError c) :=
  { h with st := rfl, err := rfl, compressing := nofun }

theorem State.Agree.startRun (h : s.Agree t) : s.startRun.Agree t.startRun :=
  { h with st := rfl, h := rfl, cnt := rfl, len := rfl, err := rfl, buf := nofun, compressing := nofun }

theorem State.Agree.startCompress (h : s.Agree t) (blk : Block) (target : Target) :
    (s.startCompress blk target).Agree (t.startCompress blk target) :=
  { h with st := rfl, compressing := fun _ => ⟨rfl, rfl, h.h, rfl⟩ }

/-- The unspecified fields take the same fresh values in both (log 1). -/
theorem State.Agree.releaseReset (h : s.Agree t) : s.releaseReset.Agree t.releaseReset :=
  { h with
    st := rfl, h := rfl, cnt := rfl, len := rfl, err := rfl, irqEn := rfl, inReset := rfl
    draws := congrArg (· + 1) h.draws, buf := nofun, compressing := nofun }

/-- The byte written at cnt joins those that agree. -/
theorem State.Agree.set_buf_getElem (h : s.Agree t) (b : Byte) (j : Fin 64) (hj : j ≤ s.cnt) :
    (s.buf.set s.cnt b)[j] = (t.buf.set t.cnt b)[j] := by
  simp only [Fin.getElem_fin, Vector.getElem_set, ← h.cnt]
  split
  · rfl
  · exact h.buf j (by omega)

theorem State.Agree.appendByte (h : s.Agree t) (b : Byte) : (s.appendByte b).Agree (t.appendByte b) := by
  by_cases hfull : s.cnt = 63
  · have hbuf : s.buf.set s.cnt b = t.buf.set t.cnt b :=
      Vector.ext fun j hj => h.set_buf_getElem b ⟨j, hj⟩ (hfull ▸ Fin.le_last _)
    rw [appendByte_of_eq b hfull, appendByte_of_eq b (h.cnt ▸ hfull), hbuf, h.len]
    apply State.Agree.startCompress
    exact { h with cnt := rfl, len := rfl, buf := fun _ _ => rfl }
  · have hcnt := State.appendByte_cnt_val b hfull
    rw [appendByte_of_ne b hfull] at hcnt
    have hbuf (j : Fin 64) (hj : j < s.cnt + 1) : (s.buf.set s.cnt b)[j] = (t.buf.set t.cnt b)[j] :=
      h.set_buf_getElem b j (Fin.le_def.mpr (by have := Fin.lt_def.mp hj; omega))
    rw [appendByte_of_ne b hfull, appendByte_of_ne b (h.cnt ▸ hfull)]
    exact { h with cnt := congrArg (· + 1) h.cnt, len := congrArg (· + 1#61) h.len, buf := hbuf }

theorem State.Agree.padFinal (h : s.Agree t) : s.padFinal.Agree t.padFinal := by
  have hblk : padFinalBlock s.buf s.cnt s.len = padFinalBlock t.buf t.cnt t.len := by
    rw [← h.cnt, ← h.len]
    exact padFinalBlock_congr h.buf
  exact { h with
    st := rfl, cnt := rfl, buf := nofun
    compressing := fun _ => ⟨by simp [h.cnt], rfl, h.h, congrArg expand hblk⟩ }

theorem State.Agree.toDone (h : s.Agree t) : ({ s with st := .done } : State).Agree { t with st := .done } :=
  { h with st := rfl, compressing := nofun }

theorem State.Agree.writeIrqEn (h : s.Agree t) (e : BitVec 2) :
    ({ s with irqEn := e } : State).Agree { t with irqEn := e } :=
  { h with irqEn := rfl }

theorem State.Agree.takeByte (h : s.Agree t) (b : Byte) : (s.takeByte b).Agree (t.takeByte b) := by
  unfold State.takeByte
  rw [← h.len]
  split
  · exact h.raiseError _
  · exact h.appendByte b

theorem State.Agree.takeWord (h : s.Agree t) (b0 b1 b2 b3 : Byte) :
    (s.takeWord b0 b1 b2 b3).Agree (t.takeWord b0 b1 b2 b3) := by
  unfold State.takeWord
  rw [← h.len]
  split
  · exact h.raiseError _
  · split
    · exact h.raiseError _
    · exact (((h.appendByte b0).appendByte b1).appendByte b2).appendByte b3

theorem State.Agree.endRaw (h : s.Agree t) : s.endRaw.Agree t.endRaw := by
  by_cases hbad : s.len.toNat = 0 ∨ s.cnt ≠ 0
  · rw [State.endRaw, State.endRaw, if_pos hbad, if_pos (h.len ▸ h.cnt ▸ hbad)]
    exact h.raiseError _
  · rw [State.endRaw, State.endRaw, if_neg hbad, if_neg (h.len ▸ h.cnt ▸ hbad)]
    exact h.toDone

theorem State.Agree.gate {k l : State} (h : s.Agree t) (hk : k.Agree l) : (s.gate c k).Agree (t.gate c l) := by
  unfold State.gate
  rw [← h.st]
  split
  · exact h
  · exact h.raiseError _
  · exact h.raiseError _
  · exact hk

/-! ### The micro-steps keep agreement -/

theorem State.Agree.roundStep (h : s.Agree t) (hs : s.st = .compress) (j : Fin 64) :
    (s.roundStep j).Agree (t.roundStep j) := by
  obtain ⟨hnxt, -, hv, hw⟩ := h.compressing hs
  exact { h with compressing := fun _ => ⟨hnxt, rfl, by simp [hv, hw], hw⟩ }

theorem State.Agree.updateStep (h : s.Agree t) (hs : s.st = .compress) : s.updateStep.Agree t.updateStep := by
  obtain ⟨hnxt, -, hv, -⟩ := h.compressing hs
  have hh : updateState s.h s.v = updateState t.h t.v := by rw [h.h, hv]
  have hpad := congrArg padBlock2 h.len
  cases hn : s.nxt with
  | toReady =>
    rw [updateStep_of_toReady hn, updateStep_of_toReady (hnxt ▸ hn)]
    exact { h with st := rfl, h := hh, compressing := nofun }
  | toDone =>
    rw [updateStep_of_toDone hn, updateStep_of_toDone (hnxt ▸ hn)]
    exact { h with st := rfl, h := hh, compressing := nofun }
  | toPad2 =>
    rw [updateStep_of_toPad2 hn, updateStep_of_toPad2 (hnxt ▸ hn), hpad]
    apply State.Agree.startCompress
    exact { h with h := hh, buf := fun _ _ => rfl }

theorem State.Agree.microStep (h : s.Agree t) : s.microStep.Agree t.microStep := by
  by_cases hs : s.st = .compress
  · have ht : t.st = .compress := h.st ▸ hs
    have hr : s.r = t.r := (h.compressing hs).2.1
    by_cases hlt : s.r.val < 64
    · rw [microStep_of_lt hs hlt, microStep_of_lt ht (hr ▸ hlt)]
      simp only [← hr]
      exact h.roundStep hs _
    · have h64 : s.r.val = 64 := by omega
      rw [microStep_of_eq hs h64, microStep_of_eq ht (hr ▸ h64)]
      exact h.updateStep hs
  · rw [microStep_of_idle hs, microStep_of_idle (h.st ▸ hs)]
    exact h

theorem State.Agree.engineTurn (h : s.Agree t) : s.engineTurn.Agree t.engineTurn :=
  { h.microStep with grant := congrArg Config.freeGrant h.draws, draws := congrArg (· + 1) h.draws }

/-! ### Operations and steps keep agreement -/

theorem State.Agree.exec (h : s.Agree t) (i : Instr) : Result.Agree (exec i s) (exec i t) := by
  have read (reg : Reg) : Result.Agree (answerRead s reg) (answerRead t reg) := by
    unfold answerRead
    rw [h.readReg_eq]
    exact h.respond _
  cases i with
  | init => exact h.startRun.respond _
  | wrIrqEn d e x => exact (h.writeIrqEn _).respond _
  | finish => exact (h.gate h.padFinal).respond _
  | finishRaw => exact (h.gate h.endRaw).respond _
  | cmdIllegal rsvd op => exact (h.gate (h.raiseError _)).respond _
  | wrDataWord b0 b1 b2 b3 => exact (h.gate (h.takeWord b0 b1 b2 b3)).respond _
  | wrDataByte b x => exact (h.gate (h.takeByte b)).respond _
  | wrId | wrStatus | wrLenLo | wrLenHi | wrDigest => exact h.respond _
  | _ => exact read _

theorem State.Agree.takeInput (h : s.Agree t) (inp : Input) : Result.Agree (s.takeInput inp) (t.takeInput inp) := by
  cases inp with
  | access a =>
    change Result.Agree (s.busAccess a) (t.busAccess a)
    cases hd : decodeAccess a with
    | ok i => rw [busAccess_of_ok hd, busAccess_of_ok hd]; exact h.exec i
    | error e => rw [busAccess_of_error hd, busAccess_of_error hd]; exact h.respond _
  | resetAssert => exact { h with inReset := rfl }
  | resetRelease => exact h

theorem State.Agree.takeInputInReset (h : s.Agree t) (inp : Input) :
    Result.Agree (s.takeInputInReset inp) (t.takeInputInReset inp) := by
  cases inp with
  | access a => rfl
  | resetAssert => exact h
  | resetRelease => exact h.releaseReset

/-- Where neither agent can move, the step answers the same state (log 5). -/
theorem step_of_idle (h : s.inReset = true ∨ s.st ≠ .compress) (hq : s.inputs = []) : step s = .next s := by
  obtain ⟨-, -, hs⟩ | ⟨_, _, -, hq', -⟩ | ⟨-, -, -, hs⟩ | ⟨⟨hr, hc, -⟩, -⟩ | ⟨_, _, -, hq', -⟩ := step_cases s
  · exact hs
  · exact absurd (hq.symm.trans hq') nofun
  · exact hs
  · simp [hr, hc] at h
  · exact absurd (hq.symm.trans hq') nofun

/-- Which agent moves, and on which input, is read off the fields that agree. -/
theorem State.Agree.step (h : s.Agree t) : Result.Agree (step s) (step t) := by
  obtain ⟨hr, hq, hs⟩ | ⟨inp, rest, hr, hq, hs⟩ | ⟨-, hc, hq, hs⟩ | ⟨⟨hr, hc, hg⟩, hs⟩ |
    ⟨inp, rest, ⟨hr, hg⟩, hq, hs⟩ := step_cases s <;> rw [hs]
  · rw [step_of_idle (.inl (h.inReset ▸ hr)) (h.inputs ▸ hq)]
    exact h
  · rw [step_of_inReset (h.inReset ▸ hr) (h.inputs ▸ hq)]
    exact (h.dropInput rest).takeInputInReset inp
  · rw [step_of_idle (.inr (h.st ▸ hc)) (h.inputs ▸ hq)]
    exact h
  · rw [step_of_engineMoves ⟨h.inReset ▸ hr, h.st ▸ hc, h.inputs ▸ h.grant ▸ hg⟩]
    exact h.engineTurn
  · rw [step_of_hostMoves ⟨h.inReset ▸ hr, h.st ▸ h.grant ▸ hg⟩ (h.inputs ▸ hq)]
    exact (h.dropInput rest).takeInput inp

/-- Settles O42: what is seen and every move are built from operations that keep agreement. -/
theorem unobservableStateHasNoEffect : Obligations.UnobservableStateHasNoEffect :=
  fun _ _ h => ⟨h.view_eq, h.step⟩

/-- Settles O9: the engine has no micro-step there, and no input waits for the host's move. -/
theorem idleOutsideCompress : Obligations.IdleOutsideCompress :=
  fun _ hc => ⟨State.microStep_of_idle hc, fun _ hq => step_of_idle (.inr hc) hq⟩

/-- Settles O59: every register is a function of the fields that R47 fixes, and their values compute. -/
theorem resetRegisterValues : Obligations.ResetRegisterValues :=
  ⟨rfl, rfl, rfl, rfl, rfl, rfl, rfl, rfl, rfl, rfl, fun _ => rfl, rfl⟩

end Sys2Proof.Machine
end

section
/-!
PROOFS. What an address, the size and offset of an access, and a read come to (spec/20_memory.md R61, R62, R66).
-/

namespace Sys2Proof

variable {we : Bool} {off : BitVec 6} {data : Word} {base addr k : Nat} {i : Instr} {a : Access}

/-! ### The address window (R61) -/

theorem windowOff_base_add (hk : k < 64) : windowOff base (base + k) = some (BitVec.ofNat 6 k) := by
  simp [windowOff, hk]

theorem windowOff_of_outside (h : addr < base ∨ base + 63 < addr) : windowOff base addr = none :=
  if_neg (by omega)

theorem busInput_of_outside (h : addr < base ∨ base + 63 < addr) (size : Nat) (we : Bool) (data : Word) :
    busInput base addr size we data = none := by
  simp [busInput, windowOff_of_outside h]

/-! ### The direction and the register of a decoded operation (R80, R86) -/

@[simp] theorem decodeRead_isWrite (reg : Reg) : (decodeRead reg).isWrite = false := by cases reg <;> rfl

@[simp] theorem decodeRead_reg (reg : Reg) : (decodeRead reg).reg = reg := by cases reg <;> rfl

/-- Whatever its data, a CMD write decodes to a command. -/
theorem decodeCmd_shape (data : Word) : (decodeCmd data).isWrite = true ∧ (decodeCmd data).reg = .cmd := by
  unfold decodeCmd
  split_ifs <;> exact ⟨rfl, rfl⟩

@[simp] theorem decodeWrite_isWrite (reg : Reg) (data : Word) : (decodeWrite reg data).isWrite = true := by
  cases reg with
  | cmd => exact (decodeCmd_shape data).1
  | _ => rfl

@[simp] theorem decodeWrite_reg (reg : Reg) (data : Word) : (decodeWrite reg data).reg = reg := by
  cases reg with
  | cmd => exact (decodeCmd_shape data).2
  | _ => rfl

/-! ### Which accesses decode (R62) -/

theorem Reg.ofOff_eq_none_iff : Reg.ofOff off = none ↔ off.extractLsb' 0 2 ≠ 0#2 := by decide +revert

theorem decodeAccess_of_bad (h : a.size ≠ 4 ∨ a.off.extractLsb' 0 2 ≠ 0#2) : ∃ e, decodeAccess a = .error e := by
  by_cases hsize : a.size = 4
  · have hoff : Reg.ofOff a.off = none := Reg.ofOff_eq_none_iff.mpr (h.resolve_left (not_not_intro hsize))
    exact ⟨.misaligned, by simp [decodeAccess, decodeFields, hsize, hoff]⟩
  · exact ⟨.badSize, if_pos hsize⟩

/-- An aligned access decodes to an operation of its direction on the register at its offset. -/
theorem decodeFields_of_aligned (h : off.extractLsb' 0 2 = 0#2) :
    ∃ i, decodeFields we off data = .ok i ∧ i.isWrite = we ∧ i.reg.off = off := by
  obtain ⟨reg, hreg⟩ : ∃ reg, Reg.ofOff off = some reg :=
    Option.ne_none_iff_exists'.mp fun hn => Reg.ofOff_eq_none_iff.mp hn h
  refine ⟨if we then decodeWrite reg data else decodeRead reg, by simp [decodeFields, hreg], ?_⟩
  cases we <;> simp [Reg.off_of_ofOff hreg]

theorem decodeAccess_of_aligned (hsize : a.size = 4) (hoff : a.off.extractLsb' 0 2 = 0#2) :
    ∃ i, decodeAccess a = .ok i ∧ i.isWrite = a.we ∧ i.reg.off = a.off := by
  have hd : decodeAccess a = decodeFields a.we a.off a.data := if_neg (not_not_intro hsize)
  exact hd ▸ decodeFields_of_aligned hoff

namespace Machine

/-! ### Reads (R66) -/

/-- No register shows the answer to an earlier access. -/
@[simp] theorem State.readReg_respond (s : State) (a : Response) (reg : Reg) :
    (s.respond a).readReg reg = s.readReg reg := by cases reg <;> rfl

@[simp] theorem State.respond_respond (s : State) (a b : Response) : (s.respond a).respond b = s.respond b := rfl

/-- A read answers what its register reads, and does nothing else. -/
theorem exec_of_read (h : i.isWrite = false) (s : State) :
    exec i s = .next (s.respond (.data (s.readReg i.reg))) := by
  cases i with
  | rdId | rdCmd | rdStatus | rdDataWord | rdDataByte | rdLenLo | rdLenHi | rdIrqEn | rdDigest => rfl
  | _ => cases h

/-! ### The obligations -/

/-- Settles O18: the read repeated after its own answer reads the same register of the same engine. -/
theorem readsChangeNothing : Obligations.ReadsChangeNothing := by
  refine fun s i h => ⟨s.readReg i.reg, exec_of_read h s, ?_⟩
  have repeated := exec_of_read h (s.respond (.data (s.readReg i.reg)))
  rwa [State.readReg_respond, State.respond_respond] at repeated

/-- Settles O6: the window's two bounds decide. -/
theorem windowDecodesItsOffsets : Obligations.WindowDecodesItsOffsets :=
  fun _ _ => ⟨fun _ hk => windowOff_base_add hk, fun h => ⟨windowOff_of_outside h, busInput_of_outside h⟩⟩

/-- Settles O8: a bus error where the access does not decode, and the operation it decodes to elsewhere. -/
theorem badAccessAnswersBusErr : Obligations.BadAccessAnswersBusErr := by
  refine fun s a => ⟨fun hbad => ?_, fun hsize hoff => ?_⟩
  · obtain ⟨e, he⟩ := decodeAccess_of_bad hbad
    exact State.busAccess_of_error he
  · obtain ⟨i, hd, hwe, hreg⟩ := decodeAccess_of_aligned hsize hoff
    exact ⟨i, hwe, hreg, State.busAccess_of_ok hd⟩

end Machine

end Sys2Proof
end

section
/-!
PROOFS. The decoder against the encoder, and against the opcode map read as a table (spec/30_encoding.md R80 to R89).
-/

namespace Sys2Proof

variable {i : Instr} {a : AccessWord} {we : Bool} {off : BitVec 6} {data : Word}

/-! ### An access word and its fields (R80) -/

@[simp] theorem accessWord_fields (a : AccessWord) : accessWord (wordWe a) (wordOff a) (wordData a) = a := by
  apply BitVec.eq_of_getLsbD_eq
  intro k hk
  rw [accessWord_getLsbD]
  split_ifs with hdata hoff
  · simp [wordData, hdata]
  · have : 32 + (k - 32) = k := by omega
    simp [wordOff, hoff, this]
  · obtain rfl : k = 38 := by omega
    simp [wordWe]

theorem accessWord_and (we we' : Bool) (off off' : BitVec 6) (data data' : Word) :
    accessWord we off data &&& accessWord we' off' data' = accessWord (we && we') (off &&& off') (data &&& data') := by
  apply BitVec.eq_of_getLsbD_eq
  intro k hk
  simp only [BitVec.getLsbD_and, accessWord_getLsbD, ← BitVec.ofBool_and_ofBool]
  split_ifs <;> rfl

/-! ### The operands and the data they make up (R82 to R85) -/

/-- The operands of a CMD write are illegal exactly where its data is none of the three commands. -/
theorem cmdDataIllegal_extract (data : Word) :
    cmdDataIllegal (data.extractLsb' 4 28) (data.extractLsb' 0 4) = true ↔
      data ≠ 1#32 ∧ data ≠ 2#32 ∧ data ≠ 3#32 := by
  simp [cmdDataIllegal, ← BitVec.toNat_inj, Nat.shiftRight_eq_div_pow]
  omega

theorem decodeCmd_of_ne (h1 : data ≠ 1#32) (h2 : data ≠ 2#32) (h3 : data ≠ 3#32) :
    decodeCmd data = .cmdIllegal (data.extractLsb' 4 28) (data.extractLsb' 0 4) := by
  simp [decodeCmd, h1, h2, h3]

theorem decodeCmd_of_illegal {rsvd : BitVec 28} {op : BitVec 4} (h : cmdDataIllegal rsvd op = true) :
    decodeCmd (rsvd ++ op) = .cmdIllegal rsvd op := by
  have hrsvd : (rsvd ++ op).extractLsb' 4 28 = rsvd := BitVec.extractLsb'_append_eq_left
  have hop : (rsvd ++ op).extractLsb' 0 4 = op := BitVec.extractLsb'_append_eq_right
  obtain ⟨h1, h2, h3⟩ := (cmdDataIllegal_extract (rsvd ++ op)).mp (by rwa [hrsvd, hop])
  rw [decodeCmd_of_ne h1 h2 h3, hrsvd, hop]

theorem decodeCmd_wf (data : Word) : (decodeCmd data).wf = true := by
  unfold decodeCmd
  split_ifs with h1 h2 h3
  · rfl
  · rfl
  · rfl
  · exact (cmdDataIllegal_extract data).mpr ⟨h1, h2, h3⟩

@[simp] theorem decodeCmd_data (data : Word) : (decodeCmd data).data = data := by
  unfold decodeCmd
  split_ifs with h1 h2 h3
  · exact h1.symm
  · exact h2.symm
  · exact h3.symm
  · exact BitVec.extractLsb'_append_extractLsb'

/-! ### The decoder inverts the encoder -/

theorem decodeRead_of_read (h : i.isWrite = false) : decodeRead i.reg = i := by
  cases i with
  | rdId | rdCmd | rdStatus | rdDataWord | rdDataByte | rdLenLo | rdLenHi | rdIrqEn | rdDigest => rfl
  | _ => cases h

/-- The operand fields of a write, cut out of the data they were put into. -/
theorem decodeWrite_of_write (h : i.isWrite = true) (hwf : i.wf = true) : decodeWrite i.reg i.data = i := by
  cases i with
  | rdId | rdCmd | rdStatus | rdDataWord | rdDataByte | rdLenLo | rdLenHi | rdIrqEn | rdDigest => cases h
  | cmdIllegal rsvd op => exact decodeCmd_of_illegal hwf
  | wrDataWord b0 b1 b2 b3 =>
    simp only [Instr.reg, Instr.data, decodeWrite, Instr.wrDataWord.injEq]
    grind
  | wrDataByte b ignored =>
    simp only [Instr.reg, Instr.data, decodeWrite, BitVec.extractLsb'_append_eq_left,
      BitVec.extractLsb'_append_eq_right]
  | wrIrqEn doneIe errIe ignored =>
    simp only [Instr.reg, Instr.data, decodeWrite, Instr.wrIrqEn.injEq]
    grind
  | _ => rfl

theorem decodeFields_off (we : Bool) (r : Reg) (data : Word) :
    decodeFields we r.off data = .ok (if we then decodeWrite r data else decodeRead r) := by
  simp [decodeFields]

/-! ### What the decoder answers -/

theorem decodeRead_wf (reg : Reg) : (decodeRead reg).wf = true := by cases reg <;> rfl

@[simp] theorem decodeRead_data (reg : Reg) : (decodeRead reg).data = 0#32 := by cases reg <;> rfl

theorem decodeWrite_wf (reg : Reg) (data : Word) : (decodeWrite reg data).wf = true := by
  cases reg with
  | cmd => exact decodeCmd_wf data
  | _ => rfl

/-- A write loses no bit of DATA. -/
@[simp] theorem decodeWrite_data (reg : Reg) (data : Word) : (decodeWrite reg data).data = data := by
  cases reg with
  | cmd => exact decodeCmd_data data
  | dataWord | dataByte | irqEn =>
    simp only [Instr.data, decodeWrite]
    grind
  | _ => rfl

/-- A decoded operation is well-formed, and its word has the fields it was decoded from, but that a read has DATA 0. -/
theorem fields_of_decodeFields (h : decodeFields we off data = .ok i) :
    i.wf = true ∧ i.isWrite = we ∧ i.reg.off = off ∧ i.data = if we then data else 0#32 := by
  unfold decodeFields at h
  split at h
  · cases h
  · next reg hreg =>
    cases h
    cases we <;> simp [Reg.off_of_ofOff hreg, decodeRead_wf, decodeWrite_wf]

/-! ### The opcode map read as a table (R86) -/

/-- The access word with its DATA 0: all that a row without DATA in its mask looks at. -/
def wordHead (a : AccessWord) : AccessWord := accessWord (wordWe a) (wordOff a) 0#32

theorem wordHead_eq_and (a : AccessWord) : wordHead a = a &&& 0x7F00000000#39 := by
  have mask : 0x7F00000000#39 = accessWord true (BitVec.allOnes 6) 0#32 := by decide
  conv_rhs => rw [← accessWord_fields a, mask, accessWord_and]
  rw [Bool.and_true, BitVec.and_allOnes, BitVec.and_zero, wordHead]

/-- The first match among some rows, `firstMatch` being that of all rows. -/
def matchIn (rows : List OpcodeRow) (a : AccessWord) : Option OpcodeRow :=
  rows.find? fun row => a &&& row.mask == row.pattern

/-- The three exact rows each match one word. -/
theorem matchIn_exactRows (h : a ∉ exactRows.map OpcodeRow.pattern) : matchIn exactRows a = none := by
  have covers : ∀ row ∈ exactRows, row.mask = BitVec.allOnes 39 := by decide
  refine List.find?_eq_none.mpr fun row hrow hmatch => h (List.mem_map.mpr ⟨row, hrow, ?_⟩)
  rw [covers row hrow, BitVec.and_allOnes] at hmatch
  exact (beq_iff_eq.mp hmatch).symm

/-- No other row looks at DATA. -/
theorem matchIn_wordHead (a : AccessWord) :
    matchIn (offsetRows ++ digestRows) a = matchIn (offsetRows ++ digestRows) (wordHead a) := by
  have within : ∀ row ∈ offsetRows ++ digestRows, 0x7F00000000#39 &&& row.mask = row.mask := by decide
  refine List.find?_congr fun row hrow => ?_
  rw [wordHead_eq_and, BitVec.and_assoc, within row hrow]

/-- On the 128 words with DATA 0 the other rows and the decoder agree. -/
theorem matchIn_of_data_zero : ∀ (we : Bool) (off : BitVec 6),
    (matchIn (offsetRows ++ digestRows) (accessWord we off 0#32)).map OpcodeRow.mnemonic =
      (decodeFields we off 0#32).toOption.map Instr.mnemonic := by decide

/-- Only the words of the exact rows decode to another mnemonic than with DATA 0. -/
theorem decode_mnemonic_of_not_exact (h : a ∉ exactRows.map OpcodeRow.pattern) :
    (decode a).toOption.map Instr.mnemonic =
      (decodeFields (wordWe a) (wordOff a) 0#32).toOption.map Instr.mnemonic := by
  unfold decode decodeFields
  cases hreg : Reg.ofOff (wordOff a) with
  | none => rfl
  | some reg =>
    cases hwe : wordWe a with
    | false => rfl
    | true =>
      cases reg with
      | cmd =>
        have ha : accessWord true 0x04#6 (wordData a) = a := by
          rw [← hwe, show 0x04#6 = wordOff a from Reg.off_of_ofOff hreg, accessWord_fields]
        have ne (k : Word) (hk : accessWord true 0x04#6 k ∈ exactRows.map OpcodeRow.pattern) : wordData a ≠ k :=
          fun hd => h (by rwa [← ha, hd])
        have hcmd := decodeCmd_of_ne (ne 1#32 (by decide)) (ne 2#32 (by decide)) (ne 3#32 (by decide))
        simp only [if_true, decodeWrite, hcmd]
        rfl
      | _ => rfl

/-- R86, R89: the table and the decoder agree on every access word. -/
theorem firstMatch_eq_decode (a : AccessWord) : firstMatch a = (decode a).toOption.map Instr.mnemonic := by
  by_cases h : a ∈ exactRows.map OpcodeRow.pattern
  · obtain rfl | rfl | rfl : a = 0x4400000001#39 ∨ a = 0x4400000002#39 ∨ a = 0x4400000003#39 := by
      simpa [exactRows] using h
    · rfl
    · rfl
    · rfl
  · calc firstMatch a
        = (matchIn (exactRows ++ (offsetRows ++ digestRows)) a).map OpcodeRow.mnemonic := rfl
      _ = (matchIn (offsetRows ++ digestRows) (wordHead a)).map OpcodeRow.mnemonic := by
        rw [matchIn, List.find?_append, ← matchIn, ← matchIn, matchIn_exactRows h, matchIn_wordHead, Option.none_or]
      _ = (decode a).toOption.map Instr.mnemonic := by
        rw [decode_mnemonic_of_not_exact h, wordHead, matchIn_of_data_zero]

/-! ### Overlapping rows (R86) -/

/-- Two rows that match one word have patterns that agree wherever both masks look. -/
theorem patterns_agree {p q : OpcodeRow} (hp : a &&& p.mask = p.pattern) (hq : a &&& q.mask = q.pattern) :
    p.pattern &&& q.mask = q.pattern &&& p.mask := by
  rw [← hp, ← hq, BitVec.and_assoc, BitVec.and_assoc, BitVec.and_comm p.mask]

/-! ### The obligations -/

/-- Settles O3: each direction's operand fields come back out of the word. -/
theorem decodeEncodeRoundTrip : Obligations.DecodeEncodeRoundTrip := by
  intro i hwf
  rw [encode, decode_accessWord, decodeFields_off]
  cases h : i.isWrite with
  | false => simp [decodeRead_of_read h]
  | true => simp [decodeWrite_of_write h hwf]

/-- Settles O2: the table and the decoder agree on every word, and the decoder's errors are those of R62. -/
theorem decoderIsFirstMatchOrBusErr : Obligations.DecoderIsFirstMatchOrBusErr := by
  refine fun a => ⟨fun ⟨hsize, hoff⟩ => ?_, fun h => decodeAccess_of_bad (not_and_or.mp h), fun hoff => ?_⟩
  · obtain ⟨i, hi, -, -⟩ := decodeAccess_of_aligned hsize hoff
    have hd : decodeFields a.we a.off a.data = .ok i := by rwa [decodeAccess, if_neg (not_not_intro hsize)] at hi
    obtain ⟨hwf, -⟩ := fields_of_decodeFields hd
    refine ⟨i, hi, hwf, ?_⟩
    rw [firstMatch_eq_decode, decode_accessWord, hd]
    rfl
  · rw [firstMatch_eq_decode, decode_accessWord, decodeFields, Reg.ofOff_eq_none_iff.mpr hoff]
    rfl

/-- Settles O4: the encoder puts together the fields that the word was decoded from. -/
theorem encodeDecodeRoundTrip : Obligations.EncodeDecodeRoundTrip := by
  intro a i h
  obtain ⟨hwf, hwe, hoff, hdata⟩ := fields_of_decodeFields h
  refine ⟨hwf, ?_⟩
  rw [encode, hwe, hoff, hdata]
  cases hw : wordWe a with
  | false => rfl
  | true =>
    have ha := accessWord_fields a
    rw [hw] at ha
    exact ha

/-- Settles O5: where two patterns agree under both masks, one row is CMD_ILLEGAL and the other exact. -/
theorem onlyCmdIllegalOverlapsOtherRows : Obligations.OnlyCmdIllegalOverlapsOtherRows := by
  have pairs : ∀ p ∈ opcodeRows, ∀ q ∈ opcodeRows, p ≠ q → p.pattern &&& q.mask = q.pattern &&& p.mask →
      (p.mnemonic = "CMD_ILLEGAL" ∧ q ∈ exactRows) ∨ (q.mnemonic = "CMD_ILLEGAL" ∧ p ∈ exactRows) := by decide
  exact fun p hp q hq hne ⟨_, hap, haq⟩ => pairs p hp q hq hne (patterns_agree hap haq)

/-- Settles O1: the decoder computes on each of the seven words. -/
theorem writtenWordsDecode : Obligations.WrittenWordsDecode := by
  unfold Obligations.WrittenWordsDecode
  decide

end Sys2Proof
end

section
/-!
PROOFS. DATA writes: the bytes they take in, the errors they raise, and what the block they fill leaves in BUF
(spec/40_padder.md R104, R106, R110, R111).
-/

namespace Sys2Proof.Machine

variable {s t : State} {i : Instr}

/-! ### Appending a list of bytes that reaches at most the end of the block -/

/-- Bytes that leave room in the block only lengthen the message. -/
theorem State.appendBytes_of_lt (bs : List Byte) (s : State) (h : s.cnt.val + bs.length < 64) :
    s.appendBytes bs = { s with
      buf := (s.appendBytes bs).buf, cnt := s.cnt + Fin.ofNat 64 bs.length
      len := s.len + BitVec.ofNat 61 bs.length } := by
  induction bs generalizing s with
  | nil => simp
  | cons b bs ih =>
    rw [List.length_cons] at h
    have hroom : s.cnt ≠ 63 := by omega
    have hcnt := State.appendByte_cnt_val b hroom
    have hcnt' : s.cnt + 1 + Fin.ofNat 64 bs.length = s.cnt + Fin.ofNat 64 (bs.length + 1) := by
      ext; simp [Fin.val_add]; omega
    have hlen' : s.len + 1#61 + BitVec.ofNat 61 bs.length = s.len + BitVec.ofNat 61 (bs.length + 1) := by
      rw [BitVec.add_assoc, ← BitVec.ofNat_add, Nat.add_comm]
    rw [appendBytes_cons, ih _ (by omega), appendByte_of_ne b hroom, List.length_cons]
    simp only [hcnt', hlen']

theorem State.appendBytes_concat (s : State) (bs : List Byte) (b : Byte) :
    s.appendBytes (bs ++ [b]) = (s.appendBytes bs).appendByte b :=
  List.foldl_concat ..

/-- Bytes of which the last fills the block start its compression. -/
theorem State.appendBytes_of_eq (bs : List Byte) (s : State) (h : s.cnt.val + bs.length = 64) :
    s.appendBytes bs =
      ({ s with
        buf := (s.appendBytes bs).buf, cnt := 0
        len := s.len + BitVec.ofNat 61 bs.length } : State).startCompress (s.appendBytes bs).buf .toReady := by
  obtain rfl | ⟨front, last, rfl⟩ := bs.eq_nil_or_concat'
  · rw [List.length_nil] at h; omega
  · rw [List.length_append, List.length_singleton] at h ⊢
    obtain ⟨buf, hfront⟩ : ∃ buf, s.appendBytes front = { s with
        buf := buf, cnt := s.cnt + Fin.ofNat 64 front.length, len := s.len + BitVec.ofNat 61 front.length } :=
      ⟨_, State.appendBytes_of_lt front s (by omega)⟩
    have hfull : s.cnt + Fin.ofNat 64 front.length = 63 := by ext; simp [Fin.val_add]; omega
    rw [appendBytes_concat, hfront, appendByte_of_eq last hfull, BitVec.ofNat_add, ← BitVec.add_assoc]
    rfl

/-- R106: only the last byte fills the block. -/
theorem State.appendBytes_st (bs : List Byte) (h : s.cnt.val + bs.length < 64) : (s.appendBytes bs).st = s.st := by
  rw [State.appendBytes_of_lt bs s h]

/-- The bytes stand in BUF from `cnt` on, in order. -/
theorem State.appendBytes_buf_getElem (bs : List Byte) (s : State) (h : s.cnt.val + bs.length ≤ 64) (j : Fin 64) :
    (s.appendBytes bs).buf[j] = if s.cnt.val ≤ j.val then bs.getD (j.val - s.cnt.val) s.buf[j] else s.buf[j] := by
  induction bs generalizing s with
  | nil => simp
  | cons b bs ih =>
    rw [List.length_cons] at h
    have hset : (s.appendByte b).buf[j] = if s.cnt.val = j.val then b else s.buf[j] := by
      simp [Vector.getElem_set]
    by_cases hfull : s.cnt = 63
    · obtain rfl : bs = [] := List.length_eq_zero_iff.mp (by omega)
      rw [appendBytes_cons, appendBytes_nil, hset]
      split_ifs with heq hle hle
      · simp [heq]
      · omega
      · omega
      · rfl
    · have hcnt := State.appendByte_cnt_val b hfull
      rw [appendBytes_cons, ih _ (by omega), hset, hcnt]
      obtain hlt | heq | hgt := Nat.lt_trichotomy j.val s.cnt.val
      · simp [show ¬s.cnt.val + 1 ≤ j.val by omega, show ¬s.cnt.val ≤ j.val by omega, hlt.ne']
      · simp [heq]
      · have hidx : j.val - s.cnt.val = j.val - (s.cnt.val + 1) + 1 := by omega
        rw [if_pos (Nat.succ_le_of_lt hgt), if_pos hgt.le, if_neg hgt.ne, hidx, List.getD_cons_succ]

/-! ### The tests of a DATA_WORD write in READY (R110) -/

theorem State.takeWord_of_misaligned (b0 b1 b2 b3 : Byte) (ha : s.len.toNat % 4 ≠ 0) :
    s.takeWord b0 b1 b2 b3 = s.raiseError .wordMisaligned := by
  rw [takeWord, if_pos ha]

theorem State.takeWord_of_overflow (b0 b1 b2 b3 : Byte) (ha : s.len.toNat % 4 = 0) (hl : s.len.toNat > 2 ^ 61 - 5) :
    s.takeWord b0 b1 b2 b3 = s.raiseError .lengthOverflow := by
  rw [takeWord, if_neg (not_not_intro ha), if_pos hl]

theorem State.takeWord_of_accepted (b0 b1 b2 b3 : Byte) (ha : s.len.toNat % 4 = 0) (hl : s.len.toNat ≤ 2 ^ 61 - 5) :
    s.takeWord b0 b1 b2 b3 = s.appendBytes [b0, b1, b2, b3] := by
  rw [takeWord, if_neg (not_not_intro ha), if_neg (not_lt_of_ge hl)]
  rfl

/-! ### The test of a DATA_BYTE write in READY (R111) -/

theorem State.takeByte_of_overflow (b : Byte) (hl : s.len.toNat = 2 ^ 61 - 1) :
    s.takeByte b = s.raiseError .lengthOverflow := by
  rw [takeByte, if_pos hl]

theorem State.takeByte_of_accepted (b : Byte) (hl : s.len.toNat ≠ 2 ^ 61 - 1) : s.takeByte b = s.appendByte b := by
  rw [takeByte, if_neg hl]

/-! ### The obligations on DATA writes -/

/-- What a gated write answers, from what the gate lets through. -/
theorem next_respond_congr {k l : State} (h : k = l) : (.next (k.respond .ok) : Result) = .next (l.respond .ok) := by
  rw [h]

/-- Settles O28: the first three bytes leave room in the block. -/
theorem dataWordFillsBlockOnlyWithLastByte : Obligations.DataWordFillsBlockOnlyWithLastByte := by
  intro s b0 b1 b2 hinv hs ha hl
  have hfit := hinv.word_fits hs ha
  have ready (bs : List Byte) (h : bs.length < 4) : (s.appendBytes bs).st = .ready :=
    (State.appendBytes_st bs (by omega)).trans hs
  exact ⟨ready [b0] (by simp), ready [b0, b1] (by simp), ready [b0, b1, b2] (by simp)⟩

/-- Settles O29: one append behind the gate and the length test. -/
theorem dataByteAppendsOneByte : Obligations.DataByteAppendsOneByte := by
  refine ⟨fun v => decodeFields_off true .dataByte v, fun s x ignored => ⟨?_, ?_, ?_, ?_, ?_⟩⟩
  · exact fun hs => next_respond_congr (State.gate_of_error hs)
  · exact fun hs => next_respond_congr (State.gate_of_compress hs)
  · exact fun hs => next_respond_congr (State.gate_of_done hs)
  · exact fun hs hl => next_respond_congr ((State.gate_of_ready hs).trans (State.takeByte_of_overflow _ hl))
  · intro hs hl
    have hexec : exec (.wrDataByte x ignored) s = .next ((s.appendByte x).respond .ok) :=
      next_respond_congr ((State.gate_of_ready hs).trans (State.takeByte_of_accepted _ hl))
    refine ⟨s.buf.set s.cnt x, fun j => ?_, fun h => ?_, fun h => ?_⟩
    · simp only [Fin.getElem_fin, Vector.getElem_set, Fin.ext_iff, eq_comm]
    · rw [hexec, State.appendByte_of_ne x (by omega)]
      rfl
    · rw [hexec, State.appendByte_of_eq x (Fin.ext h)]
      rfl

/-- Settles O27: an accepted word fits into the block, and fills it exactly where cnt is 60. -/
theorem dataWordAppendsFourBytes : Obligations.DataWordAppendsFourBytes := by
  refine ⟨fun v => decodeFields_off true .dataWord v, fun s b0 b1 b2 b3 hinv => ⟨?_, ?_, ?_, ?_, ?_, ?_⟩⟩
  · exact fun hs => next_respond_congr (State.gate_of_error hs)
  · exact fun hs => next_respond_congr (State.gate_of_compress hs)
  · exact fun hs => next_respond_congr (State.gate_of_done hs)
  · exact fun hs ha => next_respond_congr ((State.gate_of_ready hs).trans (State.takeWord_of_misaligned _ _ _ _ ha))
  · exact fun hs ha hl => next_respond_congr ((State.gate_of_ready hs).trans (State.takeWord_of_overflow _ _ _ _ ha hl))
  · intro hs ha hl
    have hfit := hinv.word_fits hs ha
    have hexec : exec (.wrDataWord b0 b1 b2 b3) s = .next ((s.appendBytes [b0, b1, b2, b3]).respond .ok) :=
      next_respond_congr ((State.gate_of_ready hs).trans (State.takeWord_of_accepted _ _ _ _ ha hl))
    refine ⟨(s.appendBytes [b0, b1, b2, b3]).buf, fun j => ?_, fun h => ?_, fun h => ?_⟩
    · rw [State.appendBytes_buf_getElem _ _ hfit]
      by_cases hle : s.cnt.val ≤ j.val
      · obtain ⟨d, hd⟩ := Nat.exists_eq_add_of_le hle
        match d with
        | 0 | 1 | 2 | 3 => simp [hd]
        | d + 4 => simp [hd]
      · rw [if_neg hle, if_neg (by omega), if_neg (by omega), if_neg (by omega), if_neg (by omega)]
    · rw [hexec, State.appendBytes_of_lt _ s (by simp; omega)]
      rfl
    · rw [hexec, State.appendBytes_of_eq _ s (by simp; omega)]
      rfl

/-! ### No byte is buffered in COMPRESS -/

theorem State.EmptyInCompress.respond (h : s.EmptyInCompress) (a : Response) : (s.respond a).EmptyInCompress := h

theorem State.emptyInCompress_appendByte (b : Byte) (hs : s.st = .ready) : (s.appendByte b).EmptyInCompress := by
  intro hc
  by_cases hfull : s.cnt = 63
  · rw [State.appendByte_of_eq b hfull, startCompress_cnt]
  · simp [State.appendByte_st_of_ne b hfull, hs] at hc

/-- Only FINISH and a byte taken in enter COMPRESS. -/
theorem State.EmptyInCompress.effect (h : s.EmptyInCompress) (hinv : s.Inv) (he : ExecEffect i s t) :
    t.EmptyInCompress := by
  cases he with
  | quiet a hm => exact h
  | irqEn d e x => exact h
  | init => exact nofun
  | raise c hi hc hm => exact nofun
  | finish hs => exact fun _ => rfl
  | finishRaw hs => exact nofun
  | takeWord b0 b1 b2 b3 hs ha hl =>
    have ht : (s.appendBytes [b0, b1, b2, b3]).EmptyInCompress :=
      State.appendBytes_induction (P := fun _ s => s.EmptyInCompress) (p := [])
        (fun b _ hs _ => State.emptyInCompress_appendByte b hs) _ h hs (hinv.word_fits hs ha) (by simp; omega)
    exact ht.respond _
  | takeByte b x hs hl => exact (State.emptyInCompress_appendByte b hs).respond _

/-- Settles O41: the engine's own moves keep cnt, and of the operations only those that begin a compression enter
COMPRESS. -/
theorem noBytesBufferedWhileCompressing : Obligations.NoBytesBufferedWhileCompressing := by
  intro s t hinv h ht
  cases step_effect ht with
  | outside => exact h
  | release => exact nofun
  | engine he =>
    obtain ⟨-, hs, -⟩ := he
    obtain ⟨hcnt, -⟩ := s.microStep_keeps
    exact fun _ => hcnt.trans (h hs)
  | operation i rest _ he => exact State.EmptyInCompress.effect (s := s.dropInput rest) h hinv he

end Sys2Proof.Machine
end

section
/-!
PROOFS. Padding: the length field's bytes, the padded message by position, and the final blocks the hardware builds of
it (spec/40_padder.md R100 to R102, R107, R112).
-/

namespace Sys2Proof.Machine

variable {m : List Byte} {k j : Nat}

/-! ### The length field (R100) -/

theorem be64Bytes_getElem (x : BitVec 64) (hk : k < 8) :
    (be64Bytes x)[k] = BitVec.ofNat 8 (x.toNat / 256 ^ (7 - k)) := by
  interval_cases k <;> simp [be64Bytes, ← BitVec.toNat_inj, Nat.shiftRight_eq_div_pow]

theorem be64Bytes_bitLen_getElem (len : BitVec 61) (hk : k < 8) :
    (be64Bytes (bitLen len))[k] = BitVec.ofNat 8 (8 * len.toNat / 256 ^ (7 - k)) := by
  rw [be64Bytes_getElem, bitLen_toNat]

theorem lengthField_eq_map {l : Nat} (h : l < 2 ^ 61) :
    lengthField l = (List.range 8).map fun k => BitVec.ofNat 8 (8 * l / 256 ^ (7 - k)) := by
  refine List.ext_getElem (by simp) fun k hk _ => ?_
  have hk : k < 8 := by simpa using hk
  simp only [lengthField, Vector.getElem_toList, be64Bytes_bitLen_getElem _ hk, List.getElem_map, List.getElem_range,
    BitVec.toNat_ofNat, Nat.mod_eq_of_lt h]

theorem lengthField_getD (l : Nat) (hk : k < 8) :
    (lengthField l).getD k 0x00#8 = (be64Bytes (bitLen (BitVec.ofNat 61 l)))[k] := by
  simp [lengthField, hk]

/-! ### The zero run and the length of the padded message (R101, R102) -/

theorem sourceZeroRun_eq (l : Nat) : ((512 - (8 * l + 72) % 512) % 512) / 8 = zeroRun l := by
  unfold zeroRun
  omega

theorem zeroRun_add (l : Nat) : l + 9 + zeroRun l = 64 * paddedBlocks l := by
  unfold zeroRun paddedBlocks
  omega

theorem zeroRun_le (l : Nat) : zeroRun l ≤ 63 := by
  unfold zeroRun
  omega

theorem pad_length (m : List Byte) : (pad m).length = m.length + 9 + zeroRun m.length := by
  simp [pad]
  omega

/-- Settles O54: the source's zero run is the model's, and it ends the padded message at a block boundary. -/
theorem padHasItsParts : Obligations.PadHasItsParts := by
  intro m hm l
  have hrun := sourceZeroRun_eq l
  have hlen : (pad m).length = l + 9 + zeroRun l := pad_length m
  have hblocks : l + 9 + zeroRun l = 64 * ((l + 8) / 64 + 1) := zeroRun_add l
  have hle := zeroRun_le l
  refine ⟨?_, hrun, hlen, hlen.trans hblocks, by omega⟩
  rw [hrun, ← lengthField_eq_map hm]
  rfl

/-! ### The final block (R112) -/

theorem exec_finish_of_ready {s : State} (hs : s.st = .ready) :
    exec .finish s = .next (s.padFinal.respond .ok) :=
  next_respond_congr (State.gate_of_ready hs)

section
variable (buf : Block) {n : Fin 64} (len : BitVec 61)

theorem padFinalBlock_message (hj : j < n.val) : (padFinalBlock buf n len)[j] = buf[j] := by
  rw [padFinalBlock_getElem, if_pos hj]

theorem padFinalBlock_marker : (padFinalBlock buf n len)[n.val] = 0x80#8 := by
  rw [padFinalBlock_getElem, if_neg (lt_irrefl _), if_pos rfl]

theorem padFinalBlock_zero (hj : n.val < j) (hj64 : j < 64) (hz : 55 < n.val ∨ j < 56) :
    (padFinalBlock buf n len)[j] = 0x00#8 := by
  rw [padFinalBlock_getElem, if_neg hj.not_gt, if_neg hj.ne', dif_neg (by omega)]

theorem padFinalBlock_length (hn : n.val ≤ 55) (hk : k < 8) :
    (padFinalBlock buf n len)[56 + k] = (be64Bytes (bitLen len))[k] := by
  simp only [padFinalBlock_getElem, if_neg (show ¬56 + k < n.val by omega), if_neg (show 56 + k ≠ n.val by omega),
    dif_pos (show n.val ≤ 55 ∧ 56 ≤ 56 + k by omega), Nat.add_sub_cancel_left]

end

/-- Settles O23: the block handed over is PadFinal's, byte by byte. -/
theorem finishBuildsTheFinalBlock : Obligations.FinishBuildsTheFinalBlock := by
  refine ⟨decodeFields_off true .cmd 2#32, fun s hs => ⟨padFinalBlock s.buf s.cnt s.len, ?_, ?_, ?_, ?_, ?_⟩⟩
  · exact fun j hj => padFinalBlock_message _ _ hj
  · exact padFinalBlock_marker _ _
  · exact fun h55 => ⟨fun j hj h56 => padFinalBlock_zero _ _ hj j.isLt (.inr h56), fun k =>
      (padFinalBlock_length _ _ h55 k.isLt).trans (be64Bytes_bitLen_getElem _ k.isLt)⟩
  · exact fun h55 j hj => padFinalBlock_zero _ _ hj j.isLt (.inl h55)
  · exact exec_finish_of_ready hs

/-! ### The blocks of the padded message (R107) -/

/-- The padded message by position: the message, the marker, the zero run, the length field. -/
theorem pad_getD (m : List Byte) (i : Nat) :
    (pad m).getD i 0x00#8 =
      if i < m.length then m.getD i 0x00#8
      else if i = m.length then 0x80#8
      else if i < m.length + 1 + zeroRun m.length then 0x00#8
      else (lengthField m.length).getD (i - (m.length + 1 + zeroRun m.length)) 0x00#8 := by
  have hmarked : (m ++ [0x80#8]).length = m.length + 1 := by simp
  have hzeros : (m ++ [0x80#8] ++ List.replicate (zeroRun m.length) 0x00#8).length
      = m.length + 1 + zeroRun m.length := by simp; omega
  rw [pad]
  split_ifs with hmsg hmark hrun
  · rw [List.getD_append _ _ _ _ (by omega), List.getD_append _ _ _ _ (by omega), List.getD_append _ _ _ _ hmsg]
  · rw [List.getD_append _ _ _ _ (by omega), List.getD_append _ _ _ _ (by omega),
      List.getD_append_right _ _ _ _ hmark.ge]
    simp [hmark]
  · rw [List.getD_append _ _ _ _ (by omega), List.getD_append_right _ _ _ _ (by omega)]
    exact List.getD_replicate _ (by omega)
  · rw [List.getD_append_right _ _ _ _ (by omega), hzeros]

theorem blocksOf_of_length {p : List Byte} (h : p.length = 64 * k) : blocksOf p = (List.range k).map (blockAt p) := by
  rw [blocksOf, h, Nat.mul_div_cancel_left k (by decide)]

/-- Below the message's last whole block the padded message is the message. -/
theorem blockAt_pad_of_lt (h : k < m.length / 64) : blockAt (pad m) k = blockAt m k := by
  ext j hj : 1
  rw [blockAt_getElem _ _ hj, blockAt_getElem _ _ hj, pad_getD, if_pos (by omega)]

/-- Where the length field fits, the zero run ends at byte 56 of the message's last block, and otherwise at byte 56 of
the block after it. -/
theorem add_zeroRun (l : Nat) :
    l + 1 + zeroRun l = 64 * (l / 64 + if l % 64 ≤ 55 then 0 else 1) + 56 := by
  unfold zeroRun
  split <;> omega

theorem blockAt_pad_last {buf : Block} {n : Fin 64} (hn : n.val = m.length % 64)
    (hbuf : ∀ j : Fin 64, j < n → m[64 * (m.length / 64) + j.val]? = some buf[j]) :
    blockAt (pad m) (m.length / 64) = padFinalBlock buf n (BitVec.ofNat 61 m.length) := by
  have hend := add_zeroRun m.length
  ext j hj : 1
  rw [blockAt_getElem _ _ hj, pad_getD]
  obtain hlt | rfl | hgt := Nat.lt_trichotomy j n.val
  · rw [if_pos (by omega), padFinalBlock_message _ _ hlt, List.getD_eq_getElem?_getD, hbuf ⟨j, hj⟩ hlt]
    rfl
  · rw [if_neg (by omega), if_pos (by omega), padFinalBlock_marker]
  · rw [if_neg (by omega), if_neg (by omega), hend]
    by_cases hfield : m.length % 64 ≤ 55 ∧ 56 ≤ j
    · obtain ⟨h55, h56⟩ := hfield
      obtain ⟨k, rfl⟩ := Nat.exists_eq_add_of_le h56
      rw [if_pos h55, if_neg (by omega), padFinalBlock_length _ _ (by omega) (by omega),
        ← lengthField_getD m.length (by omega)]
      congr 1
      omega
    · rw [if_pos (by split <;> omega), padFinalBlock_zero _ _ hgt hj (by omega)]

theorem blockAt_pad_second (h : 55 < m.length % 64) :
    blockAt (pad m) (m.length / 64 + 1) = padBlock2 (BitVec.ofNat 61 m.length) := by
  have hend := add_zeroRun m.length
  rw [if_neg h.not_ge] at hend
  ext j hj : 1
  rw [blockAt_getElem _ _ hj, pad_getD, padBlock2_getElem, if_neg (by omega), if_neg (by omega), hend]
  by_cases h56 : 56 ≤ j
  · rw [if_neg (by omega), dif_pos h56, ← lengthField_getD m.length (by omega)]
    congr 1
    omega
  · rw [if_pos (by omega), dif_neg h56]

/-- Settles O55: block by block, the message's whole blocks, the block with the marker, and the one after it where the
length field stands there. -/
theorem padFinalAgreesWithPad : Obligations.PadFinalAgreesWithPad := by
  intro m buf n _ hn hbuf len
  have hlen : (pad m).length = 64 * paddedBlocks m.length := (pad_length m).trans (zeroRun_add _)
  have hwhole : (List.range (m.length / 64)).map (blockAt (pad m)) = blocksOf m :=
    List.map_congr_left fun k hk => blockAt_pad_of_lt (List.mem_range.mp hk)
  have hlast := blockAt_pad_last hn hbuf
  rw [blocksOf_of_length hlen]
  by_cases h55 : n.val ≤ 55
  · have hblocks : paddedBlocks m.length = m.length / 64 + 1 := by unfold paddedBlocks; omega
    simp [hblocks, List.range_succ, hwhole, hlast, h55, len]
  · have hblocks : paddedBlocks m.length = m.length / 64 + 1 + 1 := by unfold paddedBlocks; omega
    simp [hblocks, List.range_succ, hwhole, hlast, h55, blockAt_pad_second (m := m) (by omega), len]

end Sys2Proof.Machine
end

section
/-!
PROOFS. A compression that nothing from outside disturbs, round by round (spec/40_padder.md R108, spec/42_rounds.md
R159, R164 to R167).
-/

namespace Sys2Proof.Machine

variable {s0 s t u : State} {blk : Block} {target : Target} {k : Nat}

/-! ### How far a compression has come -/

/-- The working variables after the first `k` rounds of `Compress(H, blk)` (R159). -/
def roundsAfter (h : Words8) (blk : Block) (k : Nat) : Words8 :=
  ((List.finRange 64).take k).foldl (round (expand blk)) h

theorem roundsAfter_succ (h : Words8) (blk : Block) (hk : k < 64) :
    roundsAfter h blk (k + 1) = round (expand blk) (roundsAfter h blk k) ⟨k, hk⟩ := by
  unfold roundsAfter
  rw [List.take_add_one, List.foldl_append]
  simp [hk]

theorem updateState_roundsAfter (h : Words8) (blk : Block) :
    updateState h (roundsAfter h blk 64) = compress h blk := by
  rw [compress, allRounds, roundsAfter, List.take_of_length_le (by simp)]

/-- The engine started to compress `blk` in `s0`, has done `k` rounds of it, and goes on as `target` says. -/
structure State.Compressing (s s0 : State) (blk : Block) (target : Target) (k : Nat) : Prop where
  st : s.st = .compress
  h : s.h = s0.h
  len : s.len = s0.len
  w : s.w = expand blk
  v : s.v = roundsAfter s0.h blk k
  r : s.r.val = k
  nxt : s.nxt = target

theorem State.compressing_startCompress (s : State) (blk : Block) (target : Target) :
    (s.startCompress blk target).Compressing s blk target 0 :=
  ⟨rfl, rfl, rfl, rfl, rfl, rfl, rfl⟩

theorem State.compressing_padFinal (s : State) :
    s.padFinal.Compressing s (padFinalBlock s.buf s.cnt s.len) (if s.cnt.val ≤ 55 then .toDone else .toPad2) 0 :=
  ⟨rfl, rfl, rfl, rfl, rfl, rfl, rfl⟩

/-- A ROUND micro-step is one round more (R165). -/
theorem State.Compressing.microStep (hs : s.Compressing s0 blk target k) (hk : k < 64) :
    s.microStep.Compressing s0 blk target (k + 1) := by
  have hr : s.r.val < 64 := by rw [hs.r]; exact hk
  rw [microStep_of_lt hs.st hr]
  refine { hs with v := ?_, r := ?_ }
  · simp only [roundStep_v, hs.w, hs.v, hs.r, roundsAfter_succ _ _ hk]
  · rw [roundStep_r, Fin.val_succ, hs.r]

/-- UPDATE leaves the compression in H (R166, R181). -/
theorem State.Compressing.update_h (hs : s.Compressing s0 blk target 64) : s.microStep.h = compress s0.h blk := by
  rw [← updateState_roundsAfter, ← hs.v, ← hs.h, microStep_of_eq hs.st hs.r]
  cases hn : s.nxt with
  | toReady => rw [updateStep_of_toReady hn]
  | toPad2 => rw [updateStep_of_toPad2 hn, startCompress_h]
  | toDone => rw [updateStep_of_toDone hn]

theorem State.Compressing.update_st_of_toDone (hs : s.Compressing s0 blk .toDone 64) : s.microStep.st = .done := by
  rw [microStep_of_eq hs.st hs.r, updateStep_of_toDone hs.nxt]

/-- After the first final block the second is compressed (R113). -/
theorem State.Compressing.update_of_toPad2 (hs : s.Compressing s0 blk .toPad2 64) :
    s.microStep.Compressing s.microStep (padBlock2 s0.len) .toDone 0 := by
  rw [microStep_of_eq hs.st hs.r, updateStep_of_toPad2 hs.nxt, hs.len]
  exact ⟨rfl, rfl, rfl, rfl, rfl, rfl, rfl⟩

/-! ### Runs with no input waiting -/

section
variable {M : Host.Core} {x y : M.State}

theorem run_succ_of_step (hy : M.step x = .next y) (k : Nat) : M.run (k + 1) x = M.run k y := by
  rw [Host.Core.run, hy]

theorem run_add (hy : M.run k x = .next y) (n : Nat) : M.run (k + n) x = M.run n y := by
  induction k generalizing x with
  | zero => cases hy; rw [Nat.zero_add]
  | succ k ih =>
    cases hstep : M.step x with
    | next z =>
      rw [run_succ_of_step hstep] at hy
      rw [Nat.succ_add, run_succ_of_step hstep, ih hy]
    | fault r => rw [Host.Core.run, hstep] at hy; cases hy
    | refused r => rw [Host.Core.run, hstep] at hy; cases hy

end

/-- Nothing from outside disturbs the engine: reset is not asserted, and no input waits. -/
structure State.Undisturbed (s : State) : Prop where
  inReset : s.inReset = false
  inputs : s.inputs = []

theorem State.Undisturbed.engineTurn (hq : s.Undisturbed) : s.engineTurn.Undisturbed := by
  obtain ⟨-, -, -, -, hreset, hinputs, -⟩ := s.microStep_keeps
  exact ⟨hreset.trans hq.inReset, hinputs.trans hq.inputs⟩

theorem step_of_undisturbed (hq : s.Undisturbed) (hs : s.st = .compress) : step s = .next s.engineTurn :=
  step_of_engineMoves ⟨hq.inReset, hs, .inl hq.inputs⟩

theorem run_succ_of_undisturbed (hu : core.run k s = .next u) (hq : u.Undisturbed) (hs : u.st = .compress) :
    core.run (k + 1) s = .next u.engineTurn :=
  (run_add hu 1).trans (run_succ_of_step (M := core) (step_of_undisturbed hq hs) 0)

/-- The first 64 steps are the rounds. -/
theorem State.Compressing.run_rounds (hs : s.Compressing s0 blk target 0) (hq : s.Undisturbed) (hk : k ≤ 64) :
    ∃ u : State, core.run k s = .next u ∧ u.Compressing s0 blk target k ∧ u.Undisturbed := by
  induction k with
  | zero => exact ⟨s, rfl, hs, hq⟩
  | succ k ih =>
    obtain ⟨u, hu, hc, hqu⟩ := ih (by omega)
    exact ⟨u.engineTurn, run_succ_of_undisturbed hu hqu hc.st, { hc.microStep hk with }, hqu.engineTurn⟩

theorem State.Compressing.run_st (hs : s.Compressing s0 blk target 0) (hq : s.Undisturbed) (hk : k < 65) :
    ∃ u : State, core.run k s = .next u ∧ u.st = .compress := by
  obtain ⟨u, hu, hc, -⟩ := hs.run_rounds hq (Nat.le_of_lt_succ hk)
  exact ⟨u, hu, hc.st⟩

/-- The 65th step is UPDATE (R167). -/
theorem State.Compressing.run_update (hs : s.Compressing s0 blk target 0) (hq : s.Undisturbed) :
    ∃ u : State, core.run 65 s = .next u.engineTurn ∧ u.Compressing s0 blk target 64 ∧ u.engineTurn.Undisturbed := by
  obtain ⟨u, hu, hc, hqu⟩ := hs.run_rounds hq le_rfl
  exact ⟨u, run_succ_of_undisturbed hu hqu hc.st, hc, hqu.engineTurn⟩

/-- Settles O46: FINISH begins a compression of 65 steps, and where it goes on to PadBlock2 one of 65 more. -/
theorem finishEndsAfter65Or130Steps : Obligations.FinishEndsAfter65Or130Steps := by
  intro s t hs hr hi ht
  cases (exec_finish_of_ready hs).symm.trans ht
  have hc : (s.padFinal.respond .ok).Compressing s _ _ 0 := { s.compressing_padFinal with }
  have hq : (s.padFinal.respond .ok).Undisturbed := ⟨hr, hi⟩
  obtain ⟨u, hu, hcu, hqu⟩ := hc.run_update hq
  by_cases h55 : s.cnt.val ≤ 55
  · simp only [h55, if_true] at hc hcu ⊢
    exact ⟨fun k hk => hc.run_st hq hk, u.engineTurn, hu, hcu.update_st_of_toDone, hcu.update_h⟩
  · simp only [h55, if_false] at hc hcu ⊢
    have hc2 : u.engineTurn.Compressing u.microStep (padBlock2 s.len) .toDone 0 := { hcu.update_of_toPad2 with }
    obtain ⟨u2, hu2, hcu2, -⟩ := hc2.run_update hqu
    refine ⟨fun k hk => ?_, u2.engineTurn, (run_add hu 65).trans hu2, hcu2.update_st_of_toDone, ?_⟩
    · by_cases h65 : k < 65
      · exact hc.run_st hq h65
      · obtain ⟨j, rfl⟩ := Nat.exists_eq_add_of_le (Nat.le_of_not_lt h65)
        rw [run_add hu]
        exact hc2.run_st hqu (by omega)
    · exact hcu2.update_h.trans (by rw [hcu.update_h])

end Sys2Proof.Machine
end

section
/-!
PROOFS. The message schedule expander: the schedule entry by entry, and the word functions bit by bit
(spec/41_schedule.md R130 to R135, spec/42_rounds.md R151 to R154).
-/

namespace Sys2Proof.Machine

variable {x : Word} {i j k m n : Nat} {blk : Block}

/-! ### The schedule -/

/-- The schedule when `k` words have been added to the first sixteen (R135). -/
def scheduleAfter (blk : Block) (k : Nat) : Words64 := (List.range' 16 k).foldl scheduleStep (loadWords blk)

theorem scheduleAfter_zero (blk : Block) : scheduleAfter blk 0 = loadWords blk := rfl

theorem scheduleAfter_succ (blk : Block) (k : Nat) :
    scheduleAfter blk (k + 1) = scheduleStep (scheduleAfter blk k) (16 + k) := by
  simp [scheduleAfter, List.range'_1_concat]

theorem expand_eq_scheduleAfter (blk : Block) : expand blk = scheduleAfter blk 48 := rfl

/-- A word that has its value keeps it: every later step writes a word above it. -/
theorem scheduleAfter_getElem_of_le (hkm : k ≤ m) (hj : j < 64) (hjk : j < 16 + k) :
    (scheduleAfter blk m)[j] = (scheduleAfter blk k)[j] := by
  induction m, hkm using Nat.le_induction with
  | base => rfl
  | succ m hkm ih =>
    have hne : j ≠ 16 + m := by omega
    simp only [scheduleAfter_succ, scheduleStep_getElem_ne _ hj hne, ih]

theorem expand_getElem_eq_scheduleAfter (hk : k ≤ 48) (hj : j < 64) (hjk : j < 16 + k) :
    (expand blk)[j] = (scheduleAfter blk k)[j] := by
  rw [expand_eq_scheduleAfter, scheduleAfter_getElem_of_le hk hj hjk]

theorem expand_getElem_of_lt (hj : j < 16) :
    (expand blk)[j] = be32 blk[4 * j] blk[4 * j + 1] blk[4 * j + 2] blk[4 * j + 3] := by
  rw [expand_getElem_eq_scheduleAfter (Nat.zero_le 48) _ hj, scheduleAfter_zero, loadWords_getElem blk hj]

/-- `W[i]` is computed when the words below it have their final values, so they may be read from the full schedule. -/
theorem expand_getElem_of_ge (h : 16 ≤ i ∧ i < 64) : (expand blk)[i] = scheduleSum (expand blk) i h := by
  obtain ⟨k, rfl⟩ := Nat.exists_eq_add_of_le h.1
  have hk : k + 1 ≤ 48 := by omega
  have below : ∀ j (hj : j < 16 + k), (expand blk)[j] = (scheduleAfter blk k)[j] := fun j hj =>
    expand_getElem_eq_scheduleAfter (by omega) (by omega) hj
  calc (expand blk)[16 + k]
    _ = (scheduleAfter blk (k + 1))[16 + k] := expand_getElem_eq_scheduleAfter hk h.2 (by omega)
    _ = scheduleSum (scheduleAfter blk k) (16 + k) h := by
      simp only [scheduleAfter_succ, scheduleStep_getElem_self _ h]
    _ = scheduleSum (expand blk) (16 + k) h := by
      unfold scheduleSum
      rw [below (16 + k - 16) (by omega), below (16 + k - 15) (by omega), below (16 + k - 7) (by omega),
        below (16 + k - 2) (by omega)]

/-- Settles O49: a schedule step writes one word, and reads words that no later step writes. -/
theorem expandMeetsTheRecurrence : Obligations.ExpandMeetsTheRecurrence := fun _ =>
  ⟨fun _ ht => expand_getElem_of_lt ht, fun _ hi => expand_getElem_of_ge hi⟩

/-! ### Rotations and shifts -/

/-- Below the wrap the right shift gives the bit, and from the wrap on the left shift. -/
theorem rotr_getLsbD (h0 : 0 < n) (hn : n < 32) (hi : i < 32) :
    (rotr x n).getLsbD i = x.getLsbD ((i + n) % 32) := by
  rw [rotr, BitVec.getLsbD_or, BitVec.getLsbD_ushiftRight, BitVec.getLsbD_shiftLeft]
  by_cases hwrap : i + n < 32
  · have hlow : i < 32 - n := by omega
    simp [Nat.mod_eq_of_lt hwrap, hlow, Nat.add_comm]
  · have hhigh : ¬i < 32 - n := by omega
    have hbit : i - (32 - n) = (i + n) % 32 := by omega
    have hout : x.getLsbD (n + i) = false := BitVec.getLsbD_of_ge x _ (by omega)
    simp [hi, hhigh, hbit, hout]

/-- Settles O50, by whether the bit wraps around. -/
theorem rotateIsBitwise : Obligations.RotateIsBitwise := fun _ _ _ h0 hn hi => rotr_getLsbD h0 hn hi

/-- The shift cuts off what R131 says it does. -/
theorem ushiftRight_getLsbD (x : Word) (n i : Nat) :
    (x >>> n).getLsbD i = (decide (i + n < 32) && x.getLsbD (i + n)) := by
  rw [BitVec.getLsbD_ushiftRight, Nat.add_comm n i]
  by_cases h : i + n < 32
  · simp [h]
  · simp [h, BitVec.getLsbD_of_ge x (i + n) (by omega)]

/-! ### The word functions -/

theorem smallSigma0_getLsbD (hi : i < 32) : (smallSigma0 x).getLsbD i =
    (x.getLsbD ((i + 7) % 32) ^^ x.getLsbD ((i + 18) % 32) ^^ (decide (i + 3 < 32) && x.getLsbD (i + 3))) := by
  simp only [smallSigma0, BitVec.getLsbD_xor, rotr_getLsbD, ushiftRight_getLsbD, hi, Nat.reduceLT]

theorem smallSigma1_getLsbD (hi : i < 32) : (smallSigma1 x).getLsbD i =
    (x.getLsbD ((i + 17) % 32) ^^ x.getLsbD ((i + 19) % 32) ^^ (decide (i + 10 < 32) && x.getLsbD (i + 10))) := by
  simp only [smallSigma1, BitVec.getLsbD_xor, rotr_getLsbD, ushiftRight_getLsbD, hi, Nat.reduceLT]

theorem bigSigma0_getLsbD (hi : i < 32) : (bigSigma0 x).getLsbD i =
    (x.getLsbD ((i + 2) % 32) ^^ x.getLsbD ((i + 13) % 32) ^^ x.getLsbD ((i + 22) % 32)) := by
  simp only [bigSigma0, BitVec.getLsbD_xor, rotr_getLsbD, hi, Nat.reduceLT]

theorem bigSigma1_getLsbD (hi : i < 32) : (bigSigma1 x).getLsbD i =
    (x.getLsbD ((i + 6) % 32) ^^ x.getLsbD ((i + 11) % 32) ^^ x.getLsbD ((i + 25) % 32)) := by
  simp only [bigSigma1, BitVec.getLsbD_xor, rotr_getLsbD, hi, Nat.reduceLT]

theorem ch_getLsbD (x y z : Word) (hi : i < 32) :
    (ch x y z).getLsbD i = if x.getLsbD i then y.getLsbD i else z.getLsbD i := by
  rw [ch, BitVec.getLsbD_xor, BitVec.getLsbD_and, BitVec.getLsbD_and, BitVec.getLsbD_not]
  cases x.getLsbD i <;> simp [hi]

/-- The exclusive or of the three pairwise ands of bits is their majority. -/
theorem xor_and_pairs_eq_majority : ∀ a b c : Bool,
    ((a && b) ^^ (a && c) ^^ (b && c)) = decide (2 ≤ a.toNat + b.toNat + c.toNat) := by decide

theorem maj_getLsbD (x y z : Word) (i : Nat) : (maj x y z).getLsbD i =
    decide (2 ≤ (x.getLsbD i).toNat + (y.getLsbD i).toNat + (z.getLsbD i).toNat) := by
  simp only [maj, BitVec.getLsbD_xor, BitVec.getLsbD_and, xor_and_pairs_eq_majority]

/-- Settles O51, from the bits of a rotation and of a shift; Ch by the bit of x, and Maj by its eight cases. -/
theorem sigmaChooseMajorityBits : Obligations.SigmaChooseMajorityBits := fun x y z i hi =>
  ⟨smallSigma0_getLsbD hi, smallSigma1_getLsbD hi, bigSigma0_getLsbD hi, bigSigma1_getLsbD hi, ch_getLsbD x y z hi,
    maj_getLsbD x y z i⟩

end Sys2Proof.Machine
end

section
/-!
PROOFS. The engine's micro-steps, the 65 of a compression (spec/42_rounds.md R165 to R167), and the end of every
compression that is not abandoned (R169).
-/

namespace Sys2Proof.Machine

variable {s t s0 : State} {blk : Block} {target : Target} {k : Nat} {i : Instr} {inp : Input}

/-! ### The two micro-steps -/

/-- Settles O43: the model's round is R157 with R155 and R156 put in. -/
theorem roundMicroStep : Obligations.RoundMicroStep := by
  intro s i hc hr
  have hlt : s.r.val < 64 := hr ▸ i.isLt
  have hi : (⟨s.r.val, hlt⟩ : Fin 64) = i := Fin.ext hr
  have hsucc : s.r + 1 = i.succ := by
    rw [← Fin.coeSucc_eq_succ]
    exact congrArg (· + 1) (Fin.ext hr)
  rw [State.microStep_of_lt hc hlt, hi, hsucc]
  rfl

/-- Settles O44: H + V is in H before the move, so the second block's compression starts from the sum. -/
theorem updateMicroStep : Obligations.UpdateMicroStep := by
  intro s hc hr
  have hstep := s.microStep_of_eq hc hr
  refine ⟨updateState s.h s.v, padBlock2 s.len, fun j => updateState_getElem s.h s.v j.isLt, fun j hj => ?_,
    fun k => ?_, fun hn => hstep.trans (State.updateStep_of_toReady hn),
    fun hn => hstep.trans (State.updateStep_of_toDone hn), fun hn => ?_⟩
  · rw [Fin.getElem_fin, padBlock2_getElem _ j.isLt, dif_neg (by omega)]
  · rw [padBlock2_getElem _ (by omega), dif_pos (by omega)]
    simp only [Nat.add_sub_cancel_left, be64Bytes_bitLen_getElem _ k.isLt]
  · rw [hstep, State.updateStep_of_toPad2 hn]
    simp only [State.startCompress, hc]

/-! ### The 65 micro-steps of a compression -/

theorem State.Compressing.iterate_microStep (hs : s.Compressing s0 blk target 0) (hk : k ≤ 64) :
    (State.microStep^[k] s).Compressing s0 blk target k := by
  induction k with
  | zero => exact hs
  | succ k ih =>
    rw [Function.iterate_succ_apply']
    exact (ih (by omega)).microStep hk

theorem State.Compressing.update_st_of_toReady (hs : s.Compressing s0 blk .toReady 64) : s.microStep.st = .ready := by
  rw [microStep_of_eq hs.st hs.r, updateStep_of_toReady hs.nxt]

theorem State.Compressing.update_buf_of_toPad2 (hs : s.Compressing s0 blk .toPad2 64) :
    s.microStep.buf = padBlock2 s0.len := by
  rw [microStep_of_eq hs.st hs.r, updateStep_of_toPad2 hs.nxt, startCompress_buf, hs.len]

/-- Settles O45: 64 rounds from StartCompress, and then UPDATE. -/
theorem compressionIsSixtyFiveMicroSteps : Obligations.CompressionIsSixtyFiveMicroSteps := by
  intro s blk target after
  have hround : ∀ k ≤ 64, (after k).Compressing s blk target k := fun k hk =>
    (s.compressing_startCompress blk target).iterate_microStep hk
  have h64 := hround 64 le_rfl
  have h65 : after 65 = (after 64).microStep := Function.iterate_succ_apply' ..
  rw [h65]
  refine ⟨fun k hk => ?_, h64.update_h, ?_, ?_, ?_⟩
  · have hk := hround k (by omega)
    exact ⟨hk.st, hk.h, hk.r⟩
  · rintro rfl
    exact h64.update_st_of_toReady
  · rintro rfl
    exact h64.update_st_of_toDone
  · rintro rfl
    have hpad := h64.update_of_toPad2
    exact ⟨hpad.st, hpad.nxt, Fin.ext hpad.r, h64.update_buf_of_toPad2⟩

/-! ### Inputs that do not abandon a compression -/

/-- The compression stands where it did, and the same inputs wait. -/
structure State.SameProgress (s t : State) : Prop where
  st : t.st = s.st
  r : t.r = s.r
  nxt : t.nxt = s.nxt
  inReset : t.inReset = s.inReset
  inputs : t.inputs = s.inputs

theorem State.sameProgress_respond (s : State) (a : Response) : s.SameProgress (s.respond a) :=
  ⟨rfl, rfl, rfl, rfl, rfl⟩

/-- Of the operations only INIT and those that can raise an error touch the engine's progress. -/
theorem ExecEffect.sameProgress (he : ExecEffect i s t) (hr : canRaise i = false) (hi : i ≠ .init) :
    s.SameProgress t := by
  cases he with
  | quiet a => exact s.sameProgress_respond a
  | irqEn => exact ⟨rfl, rfl, rfl, rfl, rfl⟩
  | init => exact absurd rfl hi
  | raise _ hr' => exact absurd (hr'.symm.trans hr) nofun
  | _ => cases hr

theorem keepsCompression_access_of_ok {a : Access} (hd : decodeAccess a = .ok i) :
    keepsCompression (.access a) = true ↔ canRaise i = false ∧ i ≠ .init := by
  simp [keepsCompression, hd]

theorem State.takeInput_of_keepsCompression (hk : keepsCompression inp = true) (s : State) :
    ∃ t, s.takeInput inp = .next t ∧ s.SameProgress t := by
  cases inp with
  | access a =>
    cases hd : decodeAccess a with
    | ok i =>
      obtain ⟨hr, hi⟩ := (keepsCompression_access_of_ok hd).mp hk
      obtain ⟨t, ht, -⟩ := exec_next i s
      exact ⟨t, (busAccess_of_ok hd).trans ht, (exec_effect ht).sameProgress hr hi⟩
    | error e => exact ⟨_, busAccess_of_error hd, s.sameProgress_respond _⟩
  | resetAssert => cases hk
  | resetRelease => exact ⟨s, rfl, rfl, rfl, rfl, rfl, rfl⟩

/-! ### The end of a compression -/

/-- The engine compresses, and nothing that waits outside it abandons that. -/
structure State.Unabandoned (s : State) : Prop where
  st : s.st = .compress
  inReset : s.inReset = false
  inputs : ∀ inp ∈ s.inputs, keepsCompression inp = true

/-- A compression has ended (R166). -/
def State.Ended (s : State) : Prop := s.st = .ready ∨ s.st = .done

/-- The micro-steps of this block and of the second padding block, where it follows (R113, R167). -/
def State.microStepsLeft (s : State) : Nat := 65 - s.r.val + if s.nxt = .toPad2 then 65 else 0

theorem State.microStepsLeft_le (s : State) : s.microStepsLeft ≤ 130 := by
  unfold State.microStepsLeft
  split <;> omega

theorem State.microStepsLeft_pos (s : State) : 0 < s.microStepsLeft := by
  unfold State.microStepsLeft
  omega

theorem State.SameProgress.microStepsLeft_eq (h : s.SameProgress t) : t.microStepsLeft = s.microStepsLeft := by
  rw [State.microStepsLeft, State.microStepsLeft, h.r, h.nxt]

/-- A micro-step ends the compression, or leaves one less to do. -/
theorem State.microStep_progress (hc : s.st = .compress) :
    s.microStep.Ended ∨ (s.microStep.st = .compress ∧ s.microStep.microStepsLeft < s.microStepsLeft) := by
  obtain ⟨hne, -⟩ | ⟨-, j, hj, hm⟩ | ⟨-, hr, ⟨-, hm⟩ | ⟨-, hm⟩ | ⟨hn, hm⟩⟩ := s.microStep_cases
  · exact absurd hc hne
  · rw [hm]
    refine .inr ⟨hc, ?_⟩
    simp only [State.microStepsLeft, roundStep_r, roundStep_nxt, Fin.val_succ, hj]
    exact Nat.add_lt_add_right (by omega) _
  · rw [hm]
    exact .inl (.inl rfl)
  · rw [hm]
    exact .inl (.inr rfl)
  · rw [hm]
    refine .inr ⟨rfl, ?_⟩
    simp [State.microStepsLeft, hr, hn]

/-- Whichever agent moves, the step ends the compression or leaves one move less: a micro-step or an input. -/
theorem State.Unabandoned.step_progress (h : s.Unabandoned) :
    ∃ t, step s = .next t ∧ (t.Ended ∨ (t.Unabandoned ∧
      t.microStepsLeft + t.inputs.length < s.microStepsLeft + s.inputs.length)) := by
  by_cases he : s.EngineMoves
  · obtain ⟨-, -, -, -, hreset, hinputs, -⟩ := s.microStep_keeps
    refine ⟨s.engineTurn, step_of_engineMoves he, (microStep_progress h.st).imp_right fun ⟨hst, hlt⟩ => ?_⟩
    have hwaiting : s.engineTurn.inputs.length ≤ s.inputs.length := (congrArg List.length hinputs).le
    exact ⟨⟨hst, hreset.trans h.inReset, hinputs.symm ▸ h.inputs⟩, Nat.add_lt_add_of_lt_of_le hlt hwaiting⟩
  · obtain ⟨hm, -, inp, rest, hq⟩ := hostMoves_of_not_engineMoves h.st h.inReset he
    have hinputs := h.inputs
    rw [hq, List.forall_mem_cons] at hinputs
    obtain ⟨hinp, hrest⟩ := hinputs
    obtain ⟨t, ht, hp⟩ := (s.dropInput rest).takeInput_of_keepsCompression hinp
    refine ⟨t, (step_of_hostMoves hm hq).trans ht, .inr ⟨?_, ?_⟩⟩
    · exact ⟨hp.st.trans h.st, hp.inReset.trans h.inReset, hp.inputs.symm ▸ hrest⟩
    · rw [hp.microStepsLeft_eq, hp.inputs, hq, List.length_cons]
      exact Nat.lt_succ_self _

theorem State.Unabandoned.run_ends {n : Nat} (h : s.Unabandoned) (hn : s.microStepsLeft + s.inputs.length ≤ n) :
    ∃ k ≤ n, ∃ u : State, core.run k s = .next u ∧ u.Ended := by
  induction n generalizing s with
  | zero =>
    have := s.microStepsLeft_pos
    omega
  | succ n ih =>
    obtain ⟨t, ht, hend | ⟨hu, hlt⟩⟩ := h.step_progress
    · exact ⟨1, by omega, t, run_succ_of_step (M := core) ht 0, hend⟩
    · obtain ⟨k, hk, u, hrun, hend⟩ := ih hu (by omega)
      exact ⟨k + 1, by omega, u, (run_succ_of_step (M := core) ht k).trans hrun, hend⟩

/-- Settles O47: every step uses up one of the micro-steps left or one of the inputs that wait. -/
theorem compressionAlwaysEnds : Obligations.CompressionAlwaysEnds :=
  fun s hc hr hi => State.Unabandoned.run_ends ⟨hc, hr, hi⟩ (Nat.add_le_add_right s.microStepsLeft_le _)

end Sys2Proof.Machine
end

section
/-!
PROOFS. The tables K and IV against the roots of the first primes (spec/42_rounds.md R150,
spec/43_update_serializer.md R180).
-/

namespace Sys2Proof.Machine

variable {e p n : Nat} {c : Word}

/-! ### The first primes -/

/-- The divisors that decide which numbers below 18 squared are prime. -/
def trialDivisors : List Nat := [2, 3, 5, 7, 11, 13, 17]

theorem mem_trialDivisors_iff : ∀ p < 18, p.Prime ↔ p ∈ trialDivisors := by decide

theorem lt_of_mem_trialDivisors : ∀ p ∈ trialDivisors, p < 18 := by decide

/-- The number is at least 2, and no trial divisor is a proper divisor of it. -/
def passesTrialDivision (n : Nat) : Bool := 2 ≤ n && trialDivisors.all fun p => n % p != 0 || p == n

theorem passesTrialDivision_iff : passesTrialDivision n = true ↔ 2 ≤ n ∧ ∀ p ∈ trialDivisors, p ∣ n → p = n := by
  simp [passesTrialDivision, Nat.dvd_iff_mod_eq_zero, imp_iff_not_or]

/-- The smallest prime factor of a number that is not prime is at most its square root. -/
theorem prime_iff_passesTrialDivision (h : n < 18 ^ 2) : n.Prime ↔ passesTrialDivision n = true := by
  rw [passesTrialDivision_iff]
  constructor
  · refine fun hn => ⟨hn.two_le, fun p hp hd => (Nat.prime_dvd_prime_iff_eq ?_ hn).mp hd⟩
    exact (mem_trialDivisors_iff p (lt_of_mem_trialDivisors p hp)).mpr hp
  · rintro ⟨h2, hdvd⟩
    by_contra hn
    have hp : n.minFac.Prime := Nat.minFac_prime (by omega)
    have hlt : n.minFac < 18 :=
      lt_of_pow_lt_pow_left₀ 2 (by decide) ((Nat.minFac_sq_le_self (by omega) hn).trans_lt h)
    have hself : n.minFac = n := hdvd _ ((mem_trialDivisors_iff _ hlt).mp hp) n.minFac_dvd
    exact hn (hself ▸ hp)

/-- The first 64 primes. -/
def firstPrimes : List Nat :=
  [2, 3, 5, 7, 11, 13, 17, 19, 23, 29, 31, 37, 41, 43, 47, 53, 59, 61, 67, 71, 73, 79, 83, 89, 97, 101, 103, 107, 109,
   113, 127, 131, 137, 139, 149, 151, 157, 163, 167, 173, 179, 181, 191, 193, 197, 199, 211, 223, 227, 229, 233, 239,
   241, 251, 257, 263, 269, 271, 277, 281, 283, 293, 307, 311]

theorem filter_prime_range : ((List.range 312).filter fun n => decide (Nat.Prime n)) = firstPrimes := by
  have htrial : ∀ n ∈ List.range 312, decide n.Prime = passesTrialDivision n := by
    intro n hn
    have hlt : n < 312 := List.mem_range.mp hn
    rw [Bool.eq_iff_iff, decide_eq_true_iff, prime_iff_passesTrialDivision (by omega)]
  rw [List.filter_congr htrial]
  decide +kernel

/-! ### Roots and their fractions -/

/-- With some whole part below 7, the word is the first 32 bits of the fraction of the `e`-th root of `p`. -/
abbrev IsRootFraction (e p : Nat) (c : Word) : Prop :=
  ∃ a < 7, (a * 2 ^ 32 + c.toNat) ^ e ≤ p * 2 ^ (32 * e) ∧ p * 2 ^ (32 * e) < (a * 2 ^ 32 + c.toNat + 1) ^ e

/-- Whole part and fraction together are the root scaled by 2^32 and rounded down; the word is its low 32 bits. -/
theorem IsRootFraction.exists_floor (h : IsRootFraction e p c) :
    ∃ n, n ^ e ≤ p * 2 ^ (32 * e) ∧ p * 2 ^ (32 * e) < (n + 1) ^ e ∧ c = BitVec.ofNat 32 n := by
  obtain ⟨a, -, hle, hlt⟩ := h
  exact ⟨a * 2 ^ 32 + c.toNat, hle, hlt, by bv_omega⟩

theorem roundConstants_isRootFraction : ∀ i : Fin 64, IsRootFraction 3 firstPrimes[i] roundConstants[i] := by decide

theorem iv_isRootFraction : ∀ j : Fin 8, IsRootFraction 2 firstPrimes[j] iv[j] := by decide

/-- Settles O52: the primes by trial division, and for each of them the two inequalities on its constant. -/
theorem constantsAreRootsOfPrimes : Obligations.ConstantsAreRootsOfPrimes := by
  unfold Obligations.ConstantsAreRootsOfPrimes
  rw [filter_prime_range]
  refine ⟨rfl, fun i => ?_, fun j => ?_⟩
  · obtain ⟨n, hn⟩ := (roundConstants_isRootFraction i).exists_floor
    exact ⟨firstPrimes[i], n, List.getElem?_eq_getElem i.isLt, hn⟩
  · obtain ⟨n, hn⟩ := (iv_isRootFraction j).exists_floor
    exact ⟨firstPrimes[j], n, List.getElem?_eq_getElem (j.isLt.trans (by decide)), hn⟩

end Sys2Proof.Machine
end

section
/-!
PROOFS. The digest serializer and its register view (spec/43_update_serializer.md R186, R187).
-/

namespace Sys2Proof

/-- R35, R86: the digest registers stand at 0x20, 0x24, …, 0x3C. -/
theorem Reg.off_digest (i : Fin 8) : (Reg.digest i).off = BitVec.ofNat 6 (0x20 + 4 * i.val) := by
  revert i; decide

namespace Machine

/-! ### The serializer (R186) -/

@[simp] theorem be32Bytes_length (w : Word) : (be32Bytes w).length = 4 := rfl

theorem be32Bytes_getElem? (w : Word) (k : Fin 4) :
    (be32Bytes w)[k.val]? = some (w.extractLsb' (24 - 8 * k.val) 8) := by
  match k with
  | 0 | 1 | 2 | 3 => rfl

theorem flatMap_be32Bytes_length (ws : List Word) : (ws.flatMap be32Bytes).length = 4 * ws.length := by
  simp [List.length_flatMap, Nat.mul_comm]

/-- Each word before word `j` takes up four bytes. -/
theorem flatMap_be32Bytes_getElem? (ws : List Word) (j : Nat) (k : Fin 4) :
    (ws.flatMap be32Bytes)[4 * j + k.val]? = ws[j]?.map fun w => w.extractLsb' (24 - 8 * k.val) 8 := by
  induction ws generalizing j with
  | nil => rfl
  | cons w ws ih =>
    rw [List.flatMap_cons]
    cases j with
    | zero =>
      rw [List.getElem?_append_left (by simp), Nat.mul_zero, Nat.zero_add, be32Bytes_getElem?]
      rfl
    | succ j =>
      have hskip : 4 * (j + 1) + k.val - (be32Bytes w).length = 4 * j + k.val := by rw [be32Bytes_length]; omega
      rw [List.getElem?_append_right (by rw [be32Bytes_length]; omega), hskip, ih, List.getElem?_cons_succ]

/-- Settles O53: the eight words stand one after another, four bytes each. -/
theorem serializeIsBigEndian : Obligations.SerializeIsBigEndian := by
  refine fun h => ⟨?_, fun j k => ?_⟩
  · rw [serialize, flatMap_be32Bytes_length, Vector.length_toList]
  · rw [serialize, flatMap_be32Bytes_getElem?]
    simp

/-! ### Reading the digest registers (R187) -/

/-- Settles O17: the offset is the register's own, and the read shows the register. -/
theorem readDigestIsTheHashState : Obligations.ReadDigestIsTheHashState :=
  fun s i => ⟨fun d => Reg.off_digest i ▸ decodeFields_off false (.digest i) d, exec_of_read (i := .rdDigest i) rfl s⟩

end Machine

end Sys2Proof
end

section
/-!
PROOFS. The hardware computes the source's digest (spec/43_update_serializer.md R189): where the hash of a run's message
stands while the run goes on, kept by every operation and by every micro-step.
-/

namespace Sys2Proof.Machine

variable {p : List Byte} {m : Message} {s t : State} {i : Instr} {k : Nat}

/-! ### The whole blocks of a message that grows -/

theorem blockAt_append (hk : k < p.length / 64) (q : List Byte) : blockAt (p ++ q) k = blockAt p k := by
  ext j hj : 1
  rw [blockAt_getElem _ _ hj, blockAt_getElem _ _ hj, List.getD_append _ _ _ _ (by omega)]

theorem map_blockAt_append (p q : List Byte) : (List.range (p.length / 64)).map (blockAt (p ++ q)) = blocksOf p :=
  List.map_congr_left fun _ hk => blockAt_append (List.mem_range.mp hk) q

/-- A byte that does not end a block adds none. -/
theorem blocksOf_concat_of_ne (b : Byte) (h : p.length % 64 ≠ 63) : blocksOf (p ++ [b]) = blocksOf p := by
  have hblocks : (p ++ [b]).length / 64 = p.length / 64 := by simp; omega
  rw [blocksOf, hblocks, map_blockAt_append]

/-- The byte that ends a block adds that block. -/
theorem blocksOf_concat_of_eq (b : Byte) (h : p.length % 64 = 63) :
    blocksOf (p ++ [b]) = blocksOf p ++ [blockAt (p ++ [b]) (p.length / 64)] := by
  have hblocks : (p ++ [b]).length / 64 = p.length / 64 + 1 := by simp; omega
  rw [blocksOf, hblocks, List.range_succ, List.map_append, map_blockAt_append, List.map_singleton]

/-- The block that the byte fills is BUF with the byte in its last place (R104). -/
theorem State.TookIn.blockAt_concat (b : Byte) (h : s.TookIn p) (hs : s.st = .ready) (hfull : s.cnt = 63) :
    blockAt (p ++ [b]) (p.length / 64) = s.buf.set s.cnt b := by
  have hcnt : p.length % 64 = 63 := by rw [← h.cnt_eq hs, hfull]; rfl
  ext j hj : 1
  rw [blockAt_getElem _ _ hj, List.getD_eq_getElem?_getD]
  simp only [hfull]
  by_cases hlast : j = 63
  · have hend : 64 * (p.length / 64) + 63 = p.length := by omega
    simp [hlast, hend]
  · have hbuf := h.buf hs ⟨j, hj⟩ (by rw [hfull]; exact Fin.lt_def.mpr (by simp; omega))
    rw [List.getElem?_append_left (by omega), Vector.getElem_set_ne _ _ (by simp; omega)]
    simp [hbuf]

/-! ### Where the hash stands -/

/-- The hash state after the whole blocks of `p`, from IV; `digest` serializes it (R185). -/
def hashOf (p : List Byte) : Words8 := (blocksOf p).foldl compress iv

@[simp] theorem hashOf_nil : hashOf [] = iv := by simp [hashOf, blocksOf]

theorem digest_eq_serialize (p : List Byte) : digest p = serialize (hashOf p) := rfl

/-- What the run hashes: the bytes as written where FINISH_RAW ended it, and their padding elsewhere. -/
def Message.hashed (m : Message) : List Byte := if m.raw then m.bytes else pad m.bytes

theorem Message.hashed_of_raw (h : m.raw = true) : m.hashed = m.bytes := by simp [hashed, h]

theorem Message.hashed_of_not_raw (h : m.raw = false) : m.hashed = pad m.bytes := by simp [hashed, h]

/-- H after the compression of `blk` has come to its end, the second padding block with it where that follows. -/
def hashReached (h : Words8) (blk : Block) (len : BitVec 61) : Target → Words8
  | .toReady | .toDone => compress h blk
  | .toPad2 => compress (compress h blk) (padBlock2 len)

/-- What H has to be then: the hash of the message's whole blocks, or of its padding. -/
def hashDue (p : List Byte) : Target → Words8
  | .toReady => hashOf p
  | .toPad2 | .toDone => hashOf (pad p)

/-- H is on its way to the hash of the message: it is there in READY for the whole blocks and in DONE for all that is
hashed, and the compression under way leads to it. -/
inductive State.Hashing (m : Message) (s : State) : Prop where
  | ready : s.st = .ready → m.raw = false → s.h = hashOf m.bytes → State.Hashing m s
  | compressing {s0 : State} {blk : Block} {target : Target} {k : Nat} : s.Compressing s0 blk target k → k ≤ 64 →
    m.raw = false → hashReached s0.h blk s0.len target = hashDue m.bytes target → State.Hashing m s
  | done : s.st = .done → (m.raw = true → 0 < m.bytes.length ∧ m.bytes.length % 64 = 0) → s.h = hashOf m.hashed →
    State.Hashing m s
  | error : s.st = .error → State.Hashing m s

theorem State.Hashing.of_ready (h : s.Hashing m) (hs : s.st = .ready) : m.raw = false ∧ s.h = hashOf m.bytes := by
  cases h with
  | ready _ hraw hh => exact ⟨hraw, hh⟩
  | compressing hc => exact absurd (hs.symm.trans hc.st) nofun
  | done hd => exact absurd (hs.symm.trans hd) nofun
  | error he => exact absurd (hs.symm.trans he) nofun

theorem State.Hashing.of_done (h : s.Hashing m) (hs : s.st = .done) :
    (m.raw = true → 0 < m.bytes.length ∧ m.bytes.length % 64 = 0) ∧ s.h = hashOf m.hashed := by
  cases h with
  | ready hr => exact absurd (hs.symm.trans hr) nofun
  | compressing hc => exact absurd (hs.symm.trans hc.st) nofun
  | done _ hlen hh => exact ⟨hlen, hh⟩
  | error he => exact absurd (hs.symm.trans he) nofun

/-- Neither `irq_en` nor what stands outside the engine has to do with H. -/
theorem State.Hashing.outside (h : s.Hashing m) (e : BitVec 2) (b : Bool) (ins : List Input) (a : Response)
    (g d : Nat) : (({ s with irqEn := e } : State).withOutside b ins a g d).Hashing m := by
  cases h with
  | ready hs hraw hh => exact .ready hs hraw hh
  | compressing hc hk hraw hdue => exact .compressing { hc with } hk hraw hdue
  | done hs hlen hh => exact .done hs hlen hh
  | error hs => exact .error hs

theorem State.Hashing.respond (h : s.Hashing m) (a : Response) : (s.respond a).Hashing m :=
  h.outside s.irqEn s.inReset s.inputs a s.grant s.draws

/-! ### The operations -/

/-- What the gate does not let through leaves ERROR, where nothing is asked of H. -/
theorem State.Hashing.gate {c : ErrCode} {u : State} (hu : s.st = .ready → u.Hashing m) : (s.gate c u).Hashing m := by
  obtain ⟨hs, hg⟩ | ⟨-, hg⟩ | ⟨-, hg⟩ | ⟨hs, hg⟩ := s.gate_cases c u <;> rw [hg]
  · exact .error hs
  · exact .error rfl
  · exact .error rfl
  · exact hu hs

/-- A byte taken in waits in BUF, or fills the block, whose compression begins. -/
theorem State.Hashing.appendByte (b : Byte) (h : s.Hashing ⟨p, false⟩) (hin : s.TookIn p) (hs : s.st = .ready) :
    (s.appendByte b).Hashing ⟨p ++ [b], false⟩ := by
  obtain ⟨-, hh⟩ := h.of_ready hs
  have hcnt := hin.cnt_eq hs
  by_cases hfull : s.cnt = 63
  · have hmod : p.length % 64 = 63 := by rw [← hcnt, hfull]; rfl
    rw [appendByte_of_eq b hfull]
    refine .compressing (State.compressing_startCompress _ _ _) (Nat.zero_le _) rfl ?_
    simp only [hashReached, hashDue, hashOf, blocksOf_concat_of_eq b hmod, hin.blockAt_concat b hs hfull,
      List.foldl_concat, hh]
  · refine .ready ((appendByte_st_of_ne b hfull).trans hs) rfl ?_
    have hmod : p.length % 64 ≠ 63 := fun h63 => hfull (Fin.ext (hcnt.trans h63))
    rw [appendByte_h, hh, hashOf, hashOf, blocksOf_concat_of_ne b hmod]

theorem State.Hashing.appendBytes (bs : List Byte) (h : s.Hashing m) (hin : s.TookIn m.bytes) (hs : s.st = .ready)
    (hcnt : s.cnt.val + bs.length ≤ 64) (hlen : s.len.toNat + bs.length ≤ 2 ^ 61 - 1) :
    (s.appendBytes bs).Hashing ⟨m.bytes ++ bs, m.raw⟩ := by
  obtain ⟨hraw, hh⟩ := h.of_ready hs
  rw [hraw]
  obtain ⟨-, ht⟩ := appendBytes_induction (P := fun p s => s.TookIn p ∧ s.Hashing ⟨p, false⟩)
    (fun b ⟨hin, h⟩ hs hl => ⟨hin.appendByte b hs hl, h.appendByte b hin hs⟩) bs
    ⟨hin, .ready hs rfl hh⟩ hs hcnt hlen
  exact ht

theorem State.Hashing.takeWord (b0 b1 b2 b3 : Byte) (h : s.Hashing m) (hin : s.TookIn m.bytes) (hs : s.st = .ready) :
    (s.takeWord b0 b1 b2 b3).Hashing (m.after s (.wrDataWord b0 b1 b2 b3)) := by
  obtain ⟨-, ht⟩ | ⟨-, -, ht⟩ | ⟨ha, hl, ht⟩ := s.takeWord_cases b0 b1 b2 b3 <;> rw [ht]
  · exact .error rfl
  · exact .error rfl
  · have hacc : s.acceptsWord = true := by simp [State.acceptsWord, hs, ha]; omega
    simp only [Message.after, hacc, if_true]
    exact h.appendBytes [b0, b1, b2, b3] hin hs (hin.inv.word_fits hs ha) (by simp; omega)

theorem State.Hashing.takeByte (b : Byte) (x : BitVec 24) (h : s.Hashing m) (hin : s.TookIn m.bytes)
    (hs : s.st = .ready) : (s.takeByte b).Hashing (m.after s (.wrDataByte b x)) := by
  obtain ⟨-, ht⟩ | ⟨hl, ht⟩ := s.takeByte_cases b <;> rw [ht]
  · exact .error rfl
  · have hacc : s.acceptsByte = true := by simp [State.acceptsByte, hs]; omega
    simp only [Message.after, hacc, if_true]
    exact h.appendBytes [b] hin hs (Nat.succ_le_of_lt s.cnt.isLt) (by have := s.len.isLt; simp; omega)

/-- The blocks that FINISH has compressed are the last ones of the padded message (R107). -/
theorem State.Hashing.padFinal (h : s.Hashing m) (hin : s.TookIn m.bytes) (hs : s.st = .ready) :
    s.padFinal.Hashing ⟨m.bytes, false⟩ := by
  obtain ⟨-, hh⟩ := h.of_ready hs
  have hlen : BitVec.ofNat 61 m.bytes.length = s.len := by rw [← hin.len, BitVec.ofNat_toNat, BitVec.setWidth_eq]
  have hpad := padFinalAgreesWithPad m.bytes s.buf s.cnt (hin.len ▸ s.len.isLt) (hin.cnt_eq hs) (hin.buf hs)
  rw [hlen] at hpad
  refine .compressing s.compressing_padFinal (Nat.zero_le _) rfl ?_
  by_cases h55 : s.cnt.val ≤ 55 <;> simp [h55, hashReached, hashDue, hashOf, hpad, hh]

/-- FINISH_RAW ends the run at a block boundary only, where H is the hash of all the bytes (R203). -/
theorem State.Hashing.endRaw (h : s.Hashing m) (hin : s.TookIn m.bytes) (hs : s.st = .ready) :
    s.endRaw.Hashing ⟨m.bytes, true⟩ := by
  obtain ⟨-, hh⟩ := h.of_ready hs
  obtain ⟨-, ht⟩ | ⟨hpos, hcnt, ht⟩ := s.endRaw_cases <;> rw [ht]
  · exact .error rfl
  · have hboundary := hin.cnt_eq hs
    rw [hcnt] at hboundary
    exact .done rfl (fun _ => ⟨by rw [← hin.len]; omega, hboundary.symm⟩) hh

theorem State.Hashing.exec (h : s.Hashing m) (hin : s.TookIn m.bytes) (ht : exec i s = .next t) :
    t.Hashing (m.after s i) := by
  cases i with
  | init => cases ht; exact .ready rfl rfl hashOf_nil.symm
  | finish => cases ht; exact (Hashing.gate fun hs => by simpa [Message.after, hs] using h.padFinal hin hs).respond _
  | finishRaw => cases ht; exact (Hashing.gate fun hs => by simpa [Message.after, hs] using h.endRaw hin hs).respond _
  | cmdIllegal => cases ht; exact (Hashing.gate fun _ => .error rfl).respond _
  | wrDataWord b0 b1 b2 b3 => cases ht; exact (Hashing.gate (h.takeWord b0 b1 b2 b3 hin)).respond _
  | wrDataByte b x => cases ht; exact (Hashing.gate (h.takeByte b x hin)).respond _
  | wrIrqEn d e x =>
    cases ht
    exact h.outside (BitVec.ofBool e ++ BitVec.ofBool d) s.inReset s.inputs .ok s.grant s.draws
  | _ => cases ht; exact h.respond _

/-! ### The engine's micro-steps -/

/-- A round goes on with the compression, and UPDATE leaves in H what was due or goes on to the second padding
block. -/
theorem State.Hashing.microStep (h : s.Hashing m) : s.microStep.Hashing m := by
  cases h with
  | ready hs hraw hh => rw [microStep_of_idle (by simp [hs])]; exact .ready hs hraw hh
  | done hs hlen hh => rw [microStep_of_idle (by simp [hs])]; exact .done hs hlen hh
  | error hs => rw [microStep_of_idle (by simp [hs])]; exact .error hs
  | @compressing s0 blk target k hc hk hraw hdue =>
    obtain hlt | rfl := Nat.lt_or_eq_of_le hk
    · exact .compressing (hc.microStep hlt) hlt hraw hdue
    · have hh := hc.update_h
      cases target with
      | toReady => exact .ready hc.update_st_of_toReady hraw (hh.trans hdue)
      | toDone =>
        refine .done hc.update_st_of_toDone (by simp [hraw]) ?_
        rw [Message.hashed_of_not_raw hraw]
        exact hh.trans hdue
      | toPad2 =>
        refine .compressing hc.update_of_toPad2 (Nat.zero_le _) hraw ?_
        rw [hashReached, hh]
        exact hdue

/-! ### Runs -/

theorem Run.hashing (h : Run m s) : s.Hashing m := by
  induction h with
  | start s hs hh => exact .ready hs rfl (hh.trans hashOf_nil.symm)
  | host i hrun hexec ih => exact ih.exec hrun.tookIn hexec
  | engine _ ih => exact ih.microStep
  | @outside _ s b ins a g d _ ih => exact ih.outside s.irqEn b ins a g d

/-- Settles O57: in DONE the hash of what the run hashes has been reached, and `digest` serializes it. -/
theorem runComputesTheDigest : Obligations.RunComputesTheDigest := by
  intro m s hrun hs
  obtain ⟨hlen, hh⟩ := hrun.hashing.of_done hs
  rw [hh]
  refine ⟨fun hraw => ?_, fun hraw => ?_⟩
  · rw [m.hashed_of_not_raw hraw, digest_eq_serialize]
  · obtain ⟨hpos, hmod⟩ := hlen hraw
    exact ⟨hpos, hmod, by rw [m.hashed_of_raw hraw, digest_eq_serialize]⟩

end Sys2Proof.Machine
end

section
/-!
PROOFS. What the control registers read: the constant, STATUS bit by bit, the bit length, the enables, and 0 for the
write-only ones (spec/44_commands.md R211 to R213, R215, R217).
-/

namespace Sys2Proof.Machine

variable {i : Nat}

/-! ### The bits of STATUS (R38, R212) -/

theorem flagWord_shiftLeft_getLsbD (b : Bool) (n : Nat) (hi : i < 32) :
    (flagWord b <<< n).getLsbD i = (decide (i = n) && b) := by
  obtain h | rfl | h := Nat.lt_trichotomy i n
  · simp [h, h.ne]
  · simp [flagWord, hi]
  · simp [flagWord, h.ne', Nat.sub_ne_zero_of_lt h]

/-- A bit of STATUS is one of the six flags, or a bit of `err` or of `cnt`. -/
theorem State.status_getLsbD (s : State) (hi : i < 32) :
    s.status.getLsbD i =
      ((decide (i = 0) && s.st == .compress) || (decide (i = 1) && s.st == .done) ||
        (decide (i = 2) && s.st == .error) || (decide (i = 3) && s.st == .ready) ||
        (decide (i = 4) && s.final) || (decide (i = 5) && s.irq) ||
        (decide (8 ≤ i) && s.err.code.getLsbD (i - 8)) || (decide (16 ≤ i) && s.cnt.val.testBit (i - 16))) := by
  have hcompress : (flagWord (s.st == .compress)).getLsbD i = (decide (i = 0) && s.st == .compress) := by
    rw [← flagWord_shiftLeft_getLsbD _ 0 hi, BitVec.shiftLeft_zero]
  have herr : (s.err.code.setWidth 32 <<< 8).getLsbD i = (decide (8 ≤ i) && s.err.code.getLsbD (i - 8)) := by
    have hk : i - 8 < 32 := by omega
    simp only [BitVec.getLsbD_shiftLeft, BitVec.getLsbD_setWidth, hi, hk, decide_true, Bool.true_and, ← not_lt,
      decide_not]
  have hcnt : (BitVec.ofNat 32 s.cnt.val <<< 16).getLsbD i =
      (decide (16 ≤ i) && s.cnt.val.testBit (i - 16)) := by
    have hk : i - 16 < 32 := by omega
    simp only [BitVec.getLsbD_shiftLeft, BitVec.getLsbD_ofNat, hi, hk, decide_true, Bool.true_and, ← not_lt,
      decide_not]
  simp only [State.status, BitVec.getLsbD_or, flagWord_shiftLeft_getLsbD _ _ hi, hcompress, herr, hcnt]

/-- Bits [7:6], [15:12] and [31:22] read 0. -/
theorem State.status_getLsbD_reserved (s : State)
    (hi : (6 ≤ i ∧ i < 8) ∨ (12 ≤ i ∧ i < 16) ∨ (22 ≤ i ∧ i < 32)) : s.status.getLsbD i = false := by
  have hflag : ∀ n < 6, i ≠ n := by omega
  have herr : (decide (8 ≤ i) && s.err.code.getLsbD (i - 8)) = false := by
    obtain h | h : i < 8 ∨ 4 ≤ i - 8 := by omega
    · simp [h]
    · rw [BitVec.getLsbD_of_ge _ _ h, Bool.and_false]
  have hcnt : (decide (16 ≤ i) && s.cnt.val.testBit (i - 16)) = false := by
    obtain h | h : i < 16 ∨ 6 ≤ i - 16 := by omega
    · simp [h]
    · rw [Nat.testBit_lt_two_pow (s.cnt.isLt.trans_le (Nat.pow_le_pow_right (n := 2) (by decide) h)), Bool.and_false]
  simp [State.status_getLsbD s (show i < 32 by omega), hflag, herr, hcnt]

theorem State.status_extract_reserved (s : State) {start len : Nat}
    (h : (6 ≤ start ∧ start + len ≤ 8) ∨ (12 ≤ start ∧ start + len ≤ 16) ∨ (22 ≤ start ∧ start + len ≤ 32)) :
    s.status.extractLsb' start len = 0#len := by
  apply BitVec.eq_of_getLsbD_eq
  intro k hk
  rw [BitVec.getLsbD_extractLsb', State.status_getLsbD_reserved s (by omega)]
  simp

theorem State.status_extract_err (s : State) : s.status.extractLsb' 8 4 = s.err.code := by
  apply BitVec.eq_of_getLsbD_eq
  intro k hk
  have hflag : ∀ n < 6, 8 + k ≠ n := by omega
  have hcnt : ¬16 ≤ 8 + k := by omega
  simp [-BitVec.getLsbD_eq_getElem, State.status_getLsbD s (show 8 + k < 32 by omega), hk, hflag, hcnt]

theorem State.status_extract_cnt (s : State) : s.status.extractLsb' 16 6 = BitVec.ofNat 6 s.cnt.val := by
  apply BitVec.eq_of_getLsbD_eq
  intro k hk
  have hflag : ∀ n < 6, 16 + k ≠ n := by omega
  have herr : s.err.code.getLsbD (16 + k - 8) = false := BitVec.getLsbD_of_ge _ _ (by omega)
  simp [-BitVec.getLsbD_eq_getElem, State.status_getLsbD s (show 16 + k < 32 by omega), hk, hflag, herr]

/-- Bits [3:0] are one flag for each engine state. -/
theorem State.status_extract_st (s : State) :
    s.status.extractLsb' 0 4 = match s.st with
      | .compress => 1#4
      | .done => 2#4
      | .error => 4#4
      | .ready => 8#4 := by
  apply BitVec.eq_of_getLsbD_eq
  intro k hk
  rw [BitVec.getLsbD_extractLsb', State.status_getLsbD s (by omega)]
  cases s.st <;> interval_cases k <;> rfl

theorem State.status_st_one_hot (s : State) :
    s.status.extractLsb' 0 4 = 1#4 ∨ s.status.extractLsb' 0 4 = 2#4 ∨ s.status.extractLsb' 0 4 = 4#4 ∨
      s.status.extractLsb' 0 4 = 8#4 := by
  rw [State.status_extract_st]
  cases s.st <;> decide

/-! ### The halves of LEN × 8 and the two enables (R41, R42) -/

theorem State.lenLo_eq_ofNat (s : State) : s.lenLo = BitVec.ofNat 32 (8 * s.len.toNat) := by
  rw [← bitLen_toNat]
  rfl

theorem State.lenHi_eq_ofNat (s : State) : s.lenHi = BitVec.ofNat 32 (8 * s.len.toNat / 2 ^ 32) := by
  rw [← bitLen_toNat, ← Nat.shiftRight_eq_div_pow]
  rfl

theorem State.irqEnWord_eq_ofNat (s : State) : s.irqEnWord = BitVec.ofNat 32 s.irqEn.toNat :=
  (BitVec.ofNat_toNat ..).symm

/-! ### The obligations on the reads -/

/-- Settles O13: each field of the word by its bits. -/
theorem readStatusShowsTheState : Obligations.ReadStatusShowsTheState := by
  refine ⟨decodeFields_off false .status, fun s => ⟨s.status, exec_of_read (i := .rdStatus) rfl s, ?_⟩⟩
  refine ⟨?_, ?_, ?_, ?_, ?_, ?_, s.status_extract_reserved (by decide), s.status_extract_err,
    s.status_extract_reserved (by decide), s.status_extract_cnt, s.status_extract_reserved (by decide),
    s.status_st_one_hot⟩
  · rw [s.status_getLsbD (by decide)]; simp [beq_eq_decide]
  · rw [s.status_getLsbD (by decide)]; simp [beq_eq_decide]
  · rw [s.status_getLsbD (by decide)]; simp [beq_eq_decide]
  · rw [s.status_getLsbD (by decide)]; simp [beq_eq_decide]
  · rw [s.status_getLsbD (by decide)]; simp [State.final, beq_eq_decide, bne]
  · rw [s.status_getLsbD (by decide)]; simp

/-- Settles O14: the bit length does not wrap, so its halves are those of a number. -/
theorem readLengthIsTheBitLength : Obligations.ReadLengthIsTheBitLength := by
  refine ⟨fun d => ⟨decodeFields_off false .lenLo d, decodeFields_off false .lenHi d⟩, fun s => ⟨?_, ?_⟩⟩
  · rw [← s.lenLo_eq_ofNat]
    exact exec_of_read (i := .rdLenLo) rfl s
  · rw [← s.lenHi_eq_ofNat]
    exact exec_of_read (i := .rdLenHi) rfl s

/-- Settles O12: the register reads its constant. -/
theorem readIdReturnsItsConstant : Obligations.ReadIdReturnsItsConstant :=
  ⟨decodeFields_off false .id, exec_of_read (i := .rdId) rfl⟩

/-- Settles O15: the register reads the enables as a number. -/
theorem readIrqEnZeroExtends : Obligations.ReadIrqEnZeroExtends := by
  refine ⟨decodeFields_off false .irqEn, fun s => ?_⟩
  rw [← s.irqEnWord_eq_ofNat]
  exact exec_of_read (i := .rdIrqEn) rfl s

/-- Settles O16: the three registers read 0. -/
theorem readWriteOnlyRegistersIsZero : Obligations.ReadWriteOnlyRegistersIsZero := by
  refine ⟨fun d => ⟨decodeFields_off false .cmd d, decodeFields_off false .dataWord d,
    decodeFields_off false .dataByte d⟩, fun s i hi => ?_⟩
  simp only [List.mem_cons, List.not_mem_nil, or_false] at hi
  obtain rfl | rfl | rfl := hi <;> exact exec_of_read rfl s

end Sys2Proof.Machine
end

section
/-!
PROOFS. The writes: to the read-only registers, to IRQ_EN, and to CMD with the decision that every command goes through
(spec/44_commands.md R200 to R204, R214, R216).
-/

namespace Sys2Proof.Machine

variable {s : State}

/-! ### Writes to the read-only registers and to IRQ_EN -/

/-- Settles O19: the offset is each register's own, and its write changes nothing. -/
theorem writeReadOnlyIsIgnored : Obligations.WriteReadOnlyIsIgnored := by
  refine ⟨fun d => ⟨decodeFields_off true .id d, decodeFields_off true .status d, decodeFields_off true .lenLo d,
    decodeFields_off true .lenHi d, fun j => Reg.off_digest j ▸ decodeFields_off true (.digest j) d⟩,
    fun s data => ⟨fun i hi => ?_, fun _ => rfl⟩⟩
  simp only [List.mem_cons, List.not_mem_nil, or_false] at hi
  obtain rfl | rfl | rfl | rfl := hi <;> rfl

/-- R85: ERR_IE and DONE_IE are the low two bits of DATA. -/
theorem ofBool_getLsbD_append (v : Word) :
    BitVec.ofBool (v.getLsbD 1) ++ BitVec.ofBool (v.getLsbD 0) = v.extractLsb' 0 2 := by
  grind

/-- Settles O20: the enables are put together from the two bits that the decoder took out of v. -/
theorem writeIrqEnKeepsTwoBits : Obligations.WriteIrqEnKeepsTwoBits := by
  refine fun s => ⟨fun _ _ _ => rfl, fun v => ⟨_, decodeFields_off true .irqEn v, ?_⟩⟩
  rw [← ofBool_getLsbD_append]
  rfl

/-! ### INIT (R201) -/

@[simp] theorem State.startRun_irq (s : State) : s.startRun.irq = false := by simp [State.irq]

theorem State.startRun_status (s : State) : s.startRun.status = 0x00000008#32 := by
  simp [State.status, State.final, ErrCode.code, flagWord, beq_eq_decide]

/-- Settles O22: STATUS and irq are those of a new run, which no answer changes. -/
theorem initStartsANewRun : Obligations.InitStartsANewRun :=
  ⟨decodeFields_off true .cmd 1#32, fun s => ⟨s.startRun.respond .ok, rfl, rfl,
    (State.readReg_respond _ _ .status).trans s.startRun_status, s.startRun_irq⟩⟩

/-! ### FINISH_RAW (R203) -/

theorem State.endRaw_of_malformed (h : s.len.toNat = 0 ∨ s.cnt ≠ 0) : s.endRaw = s.raiseError .malformedInput :=
  if_pos h

theorem State.endRaw_of_whole (hl : s.len.toNat ≠ 0) (hc : s.cnt = 0) : s.endRaw = { s with st := .done } :=
  if_neg (not_or.mpr ⟨hl, not_not_intro hc⟩)

/-- Settles O24: the length test behind the gate. -/
theorem finishRawEndsOrRejects : Obligations.FinishRawEndsOrRejects := by
  refine ⟨decodeFields_off true .cmd 3#32, fun s => ⟨?_, ?_, ?_, ?_, ?_⟩⟩
  · exact fun hs hbad => next_respond_congr ((State.gate_of_ready hs).trans (State.endRaw_of_malformed hbad))
  · exact fun hs hl hc => next_respond_congr ((State.gate_of_ready hs).trans (State.endRaw_of_whole hl hc))
  · exact fun hs => next_respond_congr (State.gate_of_compress hs)
  · exact fun hs => next_respond_congr (State.gate_of_done hs)
  · exact fun hs => next_respond_congr (State.gate_of_error hs)

/-! ### Illegal commands (R204) -/

/-- Settles O25: past the gate it raises BAD_CMD, as the gate itself does in DONE. -/
theorem illegalCommandRaisesBadCmd : Obligations.IllegalCommandRaisesBadCmd := by
  refine ⟨fun v h1 h2 h3 => ?_, fun s rsvd op => ⟨?_, ?_, ?_⟩⟩
  · exact (decodeFields_off true .cmd v).trans (congrArg Except.ok (decodeCmd_of_ne h1 h2 h3))
  · rintro (hs | hs)
    · exact next_respond_congr (State.gate_of_ready hs)
    · exact next_respond_congr (State.gate_of_done hs)
  · exact fun hs => next_respond_congr (State.gate_of_compress hs)
  · exact fun hs => next_respond_congr (State.gate_of_error hs)

/-! ### The decision (R200) -/

/-- The gate as the chain of tests it is. -/
theorem State.gate_eq_ite (s : State) (c : ErrCode) (k : State) :
    s.gate c k =
      if s.st = .error then s
      else if s.st = .compress then s.raiseError .busy
      else if s.st = .done then s.raiseError c
      else k := by
  obtain ⟨hs, h⟩ | ⟨hs, h⟩ | ⟨hs, h⟩ | ⟨hs, h⟩ := s.gate_cases c k <;> simp [h, hs]

/-- Settles O26: by the four rows a CMD write decodes to, three of them behind the gate. -/
theorem cmdWriteDecision : Obligations.CmdWriteDecision := by
  refine fun s v => ⟨decodeCmd v, decodeFields_off true .cmd v, ?_⟩
  by_cases h1 : v = 1#32
  · subst h1
    rfl
  by_cases h2 : v = 2#32
  · subst h2
    exact next_respond_congr (State.gate_eq_ite s .sequence s.padFinal)
  by_cases h3 : v = 3#32
  · subst h3
    exact next_respond_congr (State.gate_eq_ite s .sequence s.endRaw)
  rw [decodeCmd_of_ne h1 h2 h3]
  apply next_respond_congr
  simp [State.gate_eq_ite, h1, h2, h3]

end Sys2Proof.Machine
end

section
/-!
PROOFS. Errors: what each operation does by the state it finds (spec/60_exceptions.md R232, R234), how ERROR is entered
and left (R233, R236), the interrupt line (R240, R241), and the race at the end of a compression (R235).
-/

namespace Sys2Proof.Machine

variable {s t : State} {i : Instr}

/-! ### The rows of the table of accesses and states (R232) -/

/-- The code that an operation which can raise an error raises in DONE. -/
def errorInDone (i : Instr) : ErrCode := if i.mnemonic = "CMD_ILLEGAL" then .badCmd else .sequence

/-- DATA writes and commands but INIT all stand behind the gate. -/
theorem exec_eq_gate (hi : canRaise i = true) (s : State) :
    ∃ k : State, exec i s = .next ((s.gate (errorInDone i) k).respond .ok) := by
  cases i with
  | finish | finishRaw | cmdIllegal | wrDataWord | wrDataByte => exact ⟨_, rfl⟩
  | _ => cases hi

theorem exec_of_compress (hi : canRaise i = true) (hs : s.st = .compress) :
    exec i s = .next ((s.raiseError .busy).respond .ok) := by
  obtain ⟨k, hk⟩ := exec_eq_gate hi s
  rw [hk, State.gate_of_compress hs]

theorem exec_of_done (hi : canRaise i = true) (hs : s.st = .done) :
    exec i s = .next ((s.raiseError (errorInDone i)).respond .ok) := by
  obtain ⟨k, hk⟩ := exec_eq_gate hi s
  rw [hk, State.gate_of_done hs]

theorem exec_of_error (hi : canRaise i = true) (hs : s.st = .error) : exec i s = .next (s.respond .ok) := by
  obtain ⟨k, hk⟩ := exec_eq_gate hi s
  rw [hk, State.gate_of_error hs]

theorem exec_init (s : State) : exec .init s = .next (s.startRun.respond .ok) := rfl

theorem exec_wrIrqEn (d e : Bool) (x : BitVec 30) (s : State) :
    exec (.wrIrqEn d e x) s = .next { s with irqEn := BitVec.ofBool e ++ BitVec.ofBool d, resp := .ok } := rfl

/-- The writes left over are those to read-only registers (R216). -/
theorem exec_of_readOnlyWrite (hw : i.isWrite = true) (hr : canRaise i = false) (hi : i ≠ .init)
    (hq : ∀ d e x, i ≠ .wrIrqEn d e x) (s : State) : exec i s = .next (s.respond .ok) := by
  cases i with
  | wrId | wrStatus | wrLenLo | wrLenHi | wrDigest => rfl
  | init => exact absurd rfl hi
  | wrIrqEn d e x => exact absurd rfl (hq d e x)
  | finish | finishRaw | cmdIllegal | wrDataWord | wrDataByte => cases hr
  | _ => cases hw

/-- Settles O30: the gate decides in COMPRESS and DONE, and no other operation asks for the engine's state. -/
theorem writesRejectedOutsideReady : Obligations.WritesRejectedOutsideReady := by
  refine fun s i => ⟨exec_of_compress, exec_of_done, ?_, ?_, ?_, fun hr => exec_of_read hr s⟩
  · rintro rfl
    exact exec_init s
  · rintro d e x rfl
    exact exec_wrIrqEn d e x s
  · exact fun hw hr hi hq => exec_of_readOnlyWrite hw hr hi hq s

/-- Settles O31: the gate ignores the writes that can raise an error, and those to read-only registers change nothing in
any state. -/
theorem errorIgnoresOtherWrites : Obligations.ErrorIgnoresOtherWrites := by
  refine fun s hs => ⟨fun i hw hi hq => ?_, exec_init s, fun d e x => exec_wrIrqEn d e x s,
    fun i hr => exec_of_read hr s⟩
  cases hr : canRaise i with
  | true => exact exec_of_error hr hs
  | false => exact exec_of_readOnlyWrite hw hr hi hq s

/-! ### Entering and leaving ERROR (R233, R236) -/

theorem State.appendByte_st_ne_error (b : Byte) (hs : s.st ≠ .error) : (s.appendByte b).st ≠ .error := by
  by_cases hfull : s.cnt = 63
  · simp [appendByte_st_of_eq b hfull]
  · rwa [appendByte_st_of_ne b hfull]

theorem State.appendBytes_st_ne_error (bs : List Byte) (hs : s.st ≠ .error) : (s.appendBytes bs).st ≠ .error := by
  induction bs generalizing s with
  | nil => exact hs
  | cons b bs ih => exact ih (appendByte_st_ne_error b hs)

/-- Settles O32: of the effects of an operation only `raise` enters ERROR. -/
theorem errorEntryChangesNothingElse : Obligations.ErrorEntryChangesNothingElse := by
  intro s t i h hs ht
  cases exec_effect h with
  | raise c hi hc => exact ⟨hi, hc, rfl⟩
  | quiet => exact absurd ht hs
  | irqEn => exact absurd ht hs
  | init => cases ht
  | finish => cases ht
  | finishRaw => cases ht
  | takeWord => exact absurd ht (State.appendBytes_st_ne_error _ hs)
  | takeByte => exact absurd ht (State.appendBytes_st_ne_error _ hs)

/-- Of the effects of an operation only INIT's leaves ERROR: what is accepted is accepted in READY. -/
theorem ExecEffect.init_of_leaves_error (he : ExecEffect i s t) (hs : s.st = .error) (ht : t.st ≠ .error) :
    i = .init ∧ t = s.startRun.respond .ok := by
  cases he with
  | init => exact ⟨rfl, rfl⟩
  | quiet => exact absurd hs ht
  | irqEn => exact absurd hs ht
  | raise => exact absurd rfl ht
  | finish hr => cases hs.symm.trans hr
  | finishRaw hr => cases hs.symm.trans hr
  | takeWord _ _ _ _ hr => cases hs.symm.trans hr
  | takeByte _ _ hr => cases hs.symm.trans hr

/-- Settles O33: the engine itself moves only in COMPRESS, so a release of reset or an operation has left ERROR. -/
theorem errorLeftOnlyByInitOrReset : Obligations.ErrorLeftOnlyByInitOrReset := by
  intro s t h hs ht
  cases step_effect h with
  | outside => exact absurd hs ht
  | release rest hr => exact ⟨.inr hr, rfl, rfl, rfl, rfl, rfl⟩
  | engine he =>
    obtain ⟨-, hc, -⟩ := he
    cases hs.symm.trans hc
  | operation i rest ha he =>
    obtain ⟨rfl, rfl⟩ := he.init_of_leaves_error hs ht
    exact ⟨.inl ha, rfl, rfl, rfl, rfl, rfl⟩

/-! ### The interrupt line (R240, R241) -/

theorem State.irq_iff (s : State) :
    s.irq = true ↔ (s.st = .done ∧ s.irqEn.getLsbD 0 = true) ∨ (s.st = .error ∧ s.irqEn.getLsbD 1 = true) := by
  simp only [State.irq, Bool.or_eq_true, Bool.and_eq_true, beq_iff_eq]

theorem State.irq_of_done (hs : s.st = .done) : s.irq = s.irqEn.getLsbD 0 := by
  simp [State.irq, hs, beq_eq_decide]

theorem State.irq_of_error (hs : s.st = .error) : s.irq = s.irqEn.getLsbD 1 := by
  simp [State.irq, hs, beq_eq_decide]

theorem State.status_getLsbD_irq (s : State) : s.status.getLsbD 5 = s.irq := by
  rw [s.status_getLsbD (by decide)]
  simp

/-- DONE_IE is bit 0 of `irq_en` and ERR_IE bit 1 (R28). -/
theorem enables_getLsbD_zero : ∀ d e : Bool, (BitVec.ofBool e ++ BitVec.ofBool d).getLsbD 0 = d := by decide

theorem enables_getLsbD_one : ∀ d e : Bool, (BitVec.ofBool e ++ BitVec.ofBool d).getLsbD 1 = e := by decide

/-- Settles O21: in DONE the line is DONE_IE and in ERROR ERR_IE, so it falls with the enable; READY has no line. -/
theorem interruptLineIsALevel : Obligations.InterruptLineIsALevel := by
  refine fun s t => ⟨s.irq_iff, s.status_getLsbD_irq, rfl, fun h => ?_, fun e x hs h => ?_, fun d x hs h => ?_⟩
  · cases h
    exact s.startRun_irq
  · cases h
    refine (State.irq_of_done ?_).trans (enables_getLsbD_zero false e)
    exact hs
  · cases h
    refine (State.irq_of_error ?_).trans (enables_getLsbD_one d false)
    exact hs

/-! ### The race at the end of a compression (R235) -/

theorem decodeAccess_finish : decodeAccess Instr.finish.access = .ok .finish := by decide

/-- Where the host moves and one FINISH waits, the step is FINISH. -/
theorem step_of_finish_waiting (hm : s.HostMoves) (hq : s.inputs = [.access Instr.finish.access]) :
    step s = exec .finish (s.dropInput []) :=
  (step_of_hostMoves hm hq).trans (State.busAccess_of_ok decodeAccess_finish)

/-- The engine's turn at the end of an ordinary block: UPDATE, and back to READY (R166). -/
theorem State.engineTurn_of_toReady (hc : s.st = .compress) (hr : s.r.val = 64) (hn : s.nxt = .toReady) :
    s.engineTurn.st = .ready ∧ s.engineTurn.h = updateState s.h s.v := by
  have hm := (microStep_of_eq hc hr).trans (updateStep_of_toReady hn)
  exact ⟨congrArg State.st hm, congrArg State.h hm⟩

/-- Settles O48: FINISH before UPDATE meets COMPRESS and is BUSY; after it, it meets READY and an empty BUF, so one
final block is enough. -/
theorem raceAtTheEndOfACompression : Obligations.RaceAtTheEndOfACompression := by
  intro s hempty hc hr hn hreset hq
  refine ⟨fun hg => ?_, fun hg => ?_⟩
  · have hstep : step s = .next (((s.dropInput []).raiseError .busy).respond .ok) :=
      (step_of_finish_waiting ⟨hreset, fun _ => hg.ne'⟩ hq).trans (exec_of_compress rfl hc)
    exact ⟨_, run_succ_of_step (M := core) hstep 0, rfl, rfl, rfl⟩
  · obtain ⟨hst, hh⟩ := State.engineTurn_of_toReady hc hr hn
    obtain ⟨hcnt, -, -, -, hreset', hinputs, -⟩ := s.microStep_keeps
    have hhost : s.engineTurn.HostMoves := ⟨hreset'.trans hreset, fun h => by cases hst.symm.trans h⟩
    have hfirst : step s = .next s.engineTurn := step_of_engineMoves ⟨hreset, hc, .inr hg⟩
    have hsecond : step s.engineTurn = .next ((s.engineTurn.dropInput []).padFinal.respond .ok) :=
      (step_of_finish_waiting hhost (hinputs.trans hq)).trans (exec_finish_of_ready hst)
    have hcnt0 : s.engineTurn.cnt = 0 := hcnt.trans (hempty hc)
    refine ⟨_, (run_succ_of_step (M := core) hfirst 1).trans (run_succ_of_step (M := core) hsecond 0), rfl, ?_, hh⟩
    simp [hcnt0]

end Sys2Proof.Machine
end

section
/-!
PROOFS. Reset as steps: what the oldest input does while reset is asserted, its assertion and its release
(spec/70_reset_and_hazards.md R260, R261; U12 of spec/93_implementation_defined.md).
-/

namespace Sys2Proof.Machine

variable {s : State} {rest : List Input}

/-! ### What refuses a step -/

/-- Out of reset every input gives a next state: no operation refuses, and a bus error is an answer (R231). -/
theorem State.takeInput_next (s : State) (inp : Input) : ∃ t, s.takeInput inp = .next t := by
  cases inp with
  | access a =>
    cases hd : decodeAccess a with
    | ok i =>
      obtain ⟨t, ht, -⟩ := exec_next i s
      exact ⟨t, (busAccess_of_ok hd).trans ht⟩
    | error e => exact ⟨_, busAccess_of_error hd⟩
  | resetAssert => exact ⟨_, rfl⟩
  | resetRelease => exact ⟨_, rfl⟩

/-- A step is the one refusal, for an access that waits in reset, or it is safe. -/
theorem step_refused_or_safe (s : State) :
    (s.inReset = true ∧ (∃ a rest, s.inputs = .access a :: rest) ∧ step s = .refused .accessDuringReset) ∨ s.safe := by
  obtain ⟨-, -, hs⟩ | ⟨inp, rest, hr, hq, hs⟩ | ⟨-, -, -, hs⟩ | ⟨-, hs⟩ | ⟨inp, rest, -, -, hs⟩ := step_cases s
  · exact .inr ⟨_, hs⟩
  · cases inp with
    | access a => exact .inl ⟨hr, ⟨a, rest, hq⟩, hs⟩
    | resetAssert => exact .inr ⟨_, hs⟩
    | resetRelease => exact .inr ⟨_, hs⟩
  · exact .inr ⟨_, hs⟩
  · exact .inr ⟨_, hs⟩
  · obtain ⟨t, ht⟩ := (s.dropInput rest).takeInput_next inp
    exact .inr ⟨t, hs.trans ht⟩

/-- Settles O10: every step that is not that refusal is safe, and a step has one outcome. -/
theorem stepRefusesOnlyAccessInReset : Obligations.StepRefusesOnlyAccessInReset := by
  refine fun s => ⟨fun p => ⟨fun hp => ?_, ?_⟩, fun h => ?_⟩
  · obtain ⟨hr, hq, hs⟩ | ⟨t, ht⟩ := step_refused_or_safe s
    · cases hs.symm.trans hp
      exact ⟨rfl, hr, hq⟩
    · cases ht.symm.trans hp
  · rintro ⟨rfl, hr, a, rest, hq⟩
    exact step_of_inReset hr hq
  · refine (step_refused_or_safe s).resolve_left ?_
    rintro ⟨hr, ⟨a, rest, hq⟩, -⟩
    obtain h | h := h
    · cases hr.symm.trans h
    · exact h a rest hq

/-! ### Asserting and releasing reset -/

/-- The assertion of reset sets `inReset` and nothing else of the engine, also where it is set already (log 6). -/
theorem step_of_resetAssert (h : s.inReset = true ∨ s.HostMoves) (hq : s.inputs = .resetAssert :: rest) :
    step s = .next { s.dropInput rest with inReset := true } := by
  obtain hr | hm := h
  · have hkeep : ({ s.dropInput rest with inReset := true } : State) = s.dropInput rest := by rw [← hr]; rfl
    rw [hkeep]
    exact step_of_inReset hr hq
  · exact step_of_hostMoves hm hq

/-- Settles O60: the release leaves `resetEngine`, which agrees with INIT's `startRun` on the fields of the run. -/
theorem resetReleaseAndInitAgree : Obligations.ResetReleaseAndInitAgree := by
  refine fun s rest => ⟨fun hr => step_of_idle (.inl hr), step_of_resetAssert, step_of_hostMoves, fun hr hq => ?_⟩
  exact ⟨(s.dropInput rest).releaseReset, s.startRun.respond .ok, step_of_inReset hr hq, exec_init s,
    rfl, rfl, rfl, rfl, rfl, rfl, rfl, rfl, rfl, rfl, rfl, rfl, rfl, rfl⟩

end Sys2Proof.Machine
end
